-- ==== Sys2Proof/Word.lean ====
section
/-! DEFINITION. The two word widths of the machine (00_scope.md R8, R9) and their plainest arithmetic. -/

namespace Sys2Proof

/-- A program word, an opcode, an operand word or an output value: 3 bits, 0 … 7 (R9, R70). -/
abbrev Word3 := BitVec 3

/-- The value of a general register: 64 bits, unsigned (R9, R20; conflict C1). -/
abbrev Word := BitVec 64

/-- The 6-bit pair view `{op, operand}` of an instruction (R72); a notation, used by FAULT_INSN and the tables only. -/
abbrev PairView := BitVec 6

/-- `{op, operand}`: the opcode word in bits 5:3, the operand word in bits 2:0 (R10, R72). -/
def pairOf (op operand : Word3) : PairView := op ++ operand

end Sys2Proof
end

