-- ==== Sys2Proof/Syntax.lean ====
section
/-! DEFINITION. The instructions as syntax: the general registers, the operand kinds and the eight rows of
spec/opcode_table.json (30_encoding.md R73 to R77). -/

namespace Sys2Proof

/-- The three general registers; there are no other names or aliases (R20). -/
inductive Reg where
  | A | B | C
deriving DecidableEq, Repr

/-- A combo operand, by what its 3-bit code names (R75). -/
inductive Combo where
  /-- Codes 0 … 3: the value is the code itself. -/
  | lit (v : BitVec 2)
  /-- Codes 4, 5, 6: the value of register A, B, C. -/
  | reg (r : Reg)
  /-- Code 7: "reserved/invalid and must fail", when the instruction that holds it executes (R76, R80). -/
  | reserved
deriving DecidableEq, Repr

/-- The eight instructions, opcodes 0 … 7 in this order (R77). There are no pseudo-instructions (R85). -/
inductive Instr where
  /-- Opcode 0: `A ← A >> combo` (R121). -/
  | adv (k : Combo)
  /-- Opcode 1: `B ← B XOR literal` (R140). -/
  | bxl (l : Word3)
  /-- Opcode 2: `B ← combo mod 8` (R141). -/
  | bst (k : Combo)
  /-- Opcode 3: if `A ≠ 0` then `pc ← literal` (R160). -/
  | jnz (t : Word3)
  /-- Opcode 4: `B ← B XOR C`; the operand word is kept as syntax and ignored by the meaning (R142). -/
  | bxc (ignored : Word3)
  /-- Opcode 5: append `combo mod 8` to the output (R171). -/
  | out (k : Combo)
  /-- Opcode 6: `B ← A >> combo` (R122). -/
  | bdv (k : Combo)
  /-- Opcode 7: `C ← A >> combo` (R123). -/
  | cdv (k : Combo)
deriving DecidableEq, Repr

/-- The combo operand of an instruction whose operand kind is K; none for the literal and ignored kinds (R77). -/
def Instr.combo? : Instr → Option Combo
  | .adv k => some k
  | .bxl _ => none
  | .bst k => some k
  | .jnz _ => none
  | .bxc _ => none
  | .out k => some k
  | .bdv k => some k
  | .cdv k => some k

end Sys2Proof
end

