-- ==== Sys2Proof/Decode.lean ====
section
/-! DEFINITION. Decoding and encoding (30_encoding.md R70 to R80): an instruction is two 3-bit words, the opcode and
then the operand. -/

namespace Sys2Proof

/-- The combo operand a 3-bit code names (R75): 0–3 literal, 4 A, 5 B, 6 C, 7 reserved. -/
def Combo.ofCode (w : Word3) : Combo :=
  match w.toFin with
  | 0 => .lit 0
  | 1 => .lit 1
  | 2 => .lit 2
  | 3 => .lit 3
  | 4 => .reg .A
  | 5 => .reg .B
  | 6 => .reg .C
  | 7 => .reserved

/-- The instruction of an opcode word and its operand word: eight arms, no default (R77, R78). -/
def decodePair (op operand : Word3) : Instr :=
  match op.toFin with
  | 0 => .adv (Combo.ofCode operand)
  | 1 => .bxl operand
  | 2 => .bst (Combo.ofCode operand)
  | 3 => .jnz operand
  | 4 => .bxc operand
  | 5 => .out (Combo.ofCode operand)
  | 6 => .bdv (Combo.ofCode operand)
  | 7 => .cdv (Combo.ofCode operand)

/-- Why a list of words does not begin with an instruction. Both names are about missing words: no pair of words is
refused (R78, R79). -/
inductive DecodeError where
  /-- There is no word at all. -/
  | noOpcode
  /-- An opcode word with no word after it "is not an instruction" (R71). -/
  | noOperand
deriving DecidableEq, Repr

/-- The instruction a list of words begins with, and the words after it; every instruction is exactly two words (R71). -/
def decode : List Word3 → Except DecodeError (Instr × List Word3)
  | [] => .error .noOpcode
  | [_] => .error .noOperand
  | op :: operand :: rest => .ok (decodePair op operand, rest)

/-- The two words of a number that the opcode table writes as a pair view: bits 5:3 are the opcode word, the first in
the store, and bits 2:0 the operand word (R72; log 8). -/
def tablePair (w : Nat) : Word3 × Word3 := (BitVec.ofNat 3 (w / 8), BitVec.ofNat 3 w)

/-- The instruction the decoder reads from the `nbits` bits `w`, numbered as spec/opcode_table.json numbers them: the
6-bit pair view. A number of 64 or more is no pair view and is refused (log 8). -/
def decodeTableWord (nbits w : Nat) : Option Instr :=
  let v := w % 2 ^ nbits
  if v < 64 then
    match decode [(tablePair v).1, (tablePair v).2] with
    | .ok (i, _) => some i
    | .error _ => none
  else none

/-- The code of a combo operand (R75). -/
def Combo.code : Combo → Word3
  | .lit v => v.setWidth 3
  | .reg .A => 4
  | .reg .B => 5
  | .reg .C => 6
  | .reserved => 7

/-- The opcode word of an instruction (R77). -/
def Instr.opcode : Instr → Word3
  | .adv _ => 0
  | .bxl _ => 1
  | .bst _ => 2
  | .jnz _ => 3
  | .bxc _ => 4
  | .out _ => 5
  | .bdv _ => 6
  | .cdv _ => 7

/-- The operand word of an instruction (R73). -/
def Instr.operand : Instr → Word3
  | .adv k => k.code
  | .bxl l => l
  | .bst k => k.code
  | .jnz t => t
  | .bxc w => w
  | .out k => k.code
  | .bdv k => k.code
  | .cdv k => k.code

/-- The words of an instruction, opcode first (R71, R77). -/
def encode (i : Instr) : List Word3 := [i.opcode, i.operand]

/-- The pair view of an instruction, `op × 8 + operand` (R72). -/
def Instr.pairView (i : Instr) : PairView := pairOf i.opcode i.operand

end Sys2Proof
end

