-- ==== Sys2Proof/Config.lean ====
section
/-! DEFINITION. The implementation parameters of 00_scope.md R8, and the free value. -/

namespace Sys2Proof

/-- `bitlen n`, the number of bits of the binary numeral of n (R8). The numeral of 0 is taken as the one digit `0`
(DEDUCED, log 10). -/
def bitlen (n : Nat) : Nat := n.log2 + 1

/-- The parameters marked OPEN in R8. They are held in State as constant plain data (log 3), so that a statement about
every state is a statement about every configuration. -/
structure Config where
  /-- `PROG_MAX_LEN`: the largest program, in words. -/
  progMaxLen : Nat
  /-- `IP_W`: the width of the instruction pointer, in bits. -/
  ipW : Nat
  /-- `OUT_DEPTH`: the output capacity; `none` is `unbounded`. -/
  outDepth : Option Nat
  /-- `MAX_STEPS`: the step budget; `none` is no budget. -/
  maxSteps : Option Nat
deriving DecidableEq, Repr

/-- The configuration of the machine after power-on in State.reset: OUT_DEPTH and MAX_STEPS at the defaults R8 gives;
PROG_MAX_LEN and IP_W, which R8 leaves OPEN, at values the model names. DESIGN CHOICE, unsafe (log 3). -/
def Config.standard : Config := { progMaxLen := 65536, ipW := 17, outDepth := none, maxSteps := none }

/-- FREE VALUE, no body: what STEP_COUNT holds after the instruction that completes when STEP_COUNT is 2^64 − 1, for
which the spec states no value (R38, D5). The argument is State's counter of free values. DESIGN CHOICE, safe (log 4). -/
opaque Config.freeStepCount : Nat → BitVec 64

end Sys2Proof
end

