-- ==== Sys2Proof/Machine/State.lean ====
section
/-! DEFINITION. The state of the block (10_state.md R20 to R43), the reasons a step can stop, and the state after
reset (R42). -/

namespace Sys2Proof.Machine

/-- The field STATE of STATUS (R34). Every value is legal. -/
inductive RunState where
  /-- 0: no run since reset. -/
  | idle
  /-- 1: a run is in progress. -/
  | running
  /-- 2: the last run ended normally. -/
  | halted
  /-- 3: the last run, or the last START, ended in a fault. -/
  | faulted
deriving DecidableEq, Repr

/-- The contents of CAUSE (R35, R200). Code 7 is reserved and never written, so it has no constructor. -/
inductive Cause where
  /-- 0, NONE. -/
  | noCause
  /-- 1, INVALID_OPERAND (R201). -/
  | invalidOperand
  /-- 2, UNKNOWN_OPCODE: kept reserved, raised by nothing (R202). -/
  | unknownOpcode
  /-- 3, MALFORMED_PROGRAM (R206). -/
  | malformedProgram
  /-- 4, STEP_BUDGET_EXHAUSTED (R204). -/
  | stepBudgetExhausted
  /-- 5, OUTPUT_OVERFLOW (R205). -/
  | outputOverflow
  /-- 6, NOT_LOADED (R207). -/
  | notLoaded
deriving DecidableEq, Repr

/-- The contents of the program store: the words that hold a value, as (index, word) pairs with rising indexes. An
unlisted index holds no value (R42, R50; log 2). -/
abbrev Memory := List (Nat × Word3)

/-- Everything the spec gives the block (R43), with the configuration and one counter of the model's own. -/
structure State where
  /-- General register A (R20). -/
  a : Word
  /-- General register B (R20). -/
  b : Word
  /-- General register C (R20). -/
  c : Word
  /-- A_LD: the host has written A (R23). -/
  aLd : Bool
  /-- B_LD: the host has written B (R23). -/
  bLd : Bool
  /-- C_LD: the host has written C (R23). -/
  cLd : Bool
  /-- PROG: the program store (R32, R50). -/
  prog : Memory
  /-- LEN: the program's length in words (R32). -/
  len : Nat
  /-- P_LD: the host has loaded a program (R32). -/
  pLd : Bool
  /-- The instruction pointer, counted in words (R24); a natural, as R28 permits (log 5). -/
  pc : Nat
  /-- OUT: the output sequence, oldest first (R30). OUT_COUNT and OUT_DATA are derived from it (R43). -/
  out : List Word3
  /-- STATE (R34). -/
  runState : RunState
  /-- CAUSE (R35). -/
  cause : Cause
  /-- FAULT_IP (R36). -/
  faultIp : Nat
  /-- FAULT_INSN: the pair view of the faulting instruction (R37). -/
  faultInsn : PairView
  /-- STEP_COUNT: instructions completed in the current or last run (R38). -/
  stepCount : BitVec 64
  /-- The MODEL's own: the parameters of R8, which nothing writes (log 3). -/
  cfg : Config
  /-- The MODEL's own: how many free values have been used (log 4). -/
  freeIdx : Nat
deriving DecidableEq, Repr

/-- Why a step stops with a fault OF THE MODEL. The faults of 60_exceptions.md are none of these: taking one is a next
state with STATE = FAULTED (R203). -/
inductive Fault where
  /-- Raised by the fetch when an index below LEN holds no word (R50: such a word has no value). Safe: the model stops.
  No state that keeps the invariant of Safety.lean takes it (log 13). -/
  | noWord (index : Nat)
deriving DecidableEq, Repr

/-- Why there is no step. -/
inductive Refusal where
  /-- Raised by an arm of exec whose instruction has no meaning; no arm of this model does. Safe. -/
  | notModelled (mnemonic : String)
  /-- Raised by the step when STATE is not RUNNING: "While STATE is IDLE, HALTED or FAULTED the machine has no step"
  (R100). Safe: only a host transaction goes on from there (log 6). -/
  | notRunning (st : RunState)
deriving DecidableEq, Repr

/-- The state after power-on of a block with the parameters `cfg` (R42, R240). A, B, C hold "no value" by R42: their
loaded flags are 0, and the model stores 0 behind them. DESIGN CHOICE, unsafe (log 1). -/
def State.resetWith (cfg : Config) : State where
  a := 0
  b := 0
  c := 0
  aLd := false
  bLd := false
  cLd := false
  prog := []
  len := 0
  pLd := false
  pc := 0
  out := []
  runState := .idle
  cause := .noCause
  faultIp := 0
  faultInsn := 0
  stepCount := 0
  cfg := cfg
  freeIdx := 0

/-- The machine right after reset (R42), with the configuration the model names (log 3). -/
def State.reset : State := State.resetWith Config.standard

end Sys2Proof.Machine
end

