-- ==== Sys2Proof/Machine/Ops.lean ====
section
/-! DEFINITION. The named operations on the state: the program store, the register bank, the output, the fetch, the
commit of a completed instruction, and taking a fault. -/

namespace Sys2Proof.Machine

/-! ### The program store (20_memory.md) -/

/-- The word at an index, `none` where the store holds no value (R50). -/
def Memory.read : Memory → Nat → Option Word3
  | [], _ => none
  | (j, w) :: m, i => if i = j then some w else Memory.read m i

/-- Give the word at an index the value `w`, keeping the indexes rising. Used by the host's load alone: no instruction
writes the store (R51). -/
def Memory.write : Memory → Nat → Word3 → Memory
  | [], i, w => [(i, w)]
  | (j, v) :: m, i, w =>
    if i < j then (i, w) :: (j, v) :: m
    else if i = j then (i, w) :: m
    else (j, v) :: Memory.write m i w

/-- A list of words at consecutive indexes from `base` on. -/
def Memory.ofWordsFrom (base : Nat) : List Word3 → Memory
  | [] => []
  | w :: ws => (base, w) :: Memory.ofWordsFrom (base + 1) ws

/-- `PROG[i] = ws[i]` for `0 ≤ i < length ws`, and no value at any other index (R244). -/
def Memory.ofWords (ws : List Word3) : Memory := Memory.ofWordsFrom 0 ws

/-- The canonical form: indexes strictly rising. A listed word always differs from what an unlisted index reads as, which
is no value. -/
def Memory.wf : Memory → Bool
  | [] => true
  | [_] => true
  | (i, _) :: (j, w) :: m => decide (i < j) && Memory.wf ((j, w) :: m)

/-- `MemRead(addr, 1)` of R12: the word at `addr`, defined only for `addr < LEN` (R50). -/
def State.memRead (s : State) (addr : Nat) : Except Fault Word3 :=
  if addr < s.len then
    match Memory.read s.prog addr with
    | some w => .ok w
    | none => .error (.noWord addr)
  else .error (.noWord addr)

/-! ### The register bank (R20) -/

/-- `x[r]` of R12. -/
def State.getReg (s : State) : Reg → Word
  | .A => s.a
  | .B => s.b
  | .C => s.c

/-- `x[r] <- v` of R12. -/
def State.setReg (s : State) (r : Reg) (v : Word) : State :=
  match r with
  | .A => { s with a := v }
  | .B => { s with b := v }
  | .C => { s with c := v }

/-! ### The output (R30, R170) -/

/-- `Emit(d)` of R171: append one value to OUT. OUT_DATA is the last value of OUT. -/
def State.emit (s : State) (d : Word3) : State := { s with out := s.out ++ [d] }

/-- OUT_DATA (R30): the last value appended; none while OUT is empty. -/
def State.outData (s : State) : Option Word3 := s.out.getLast?

/-- OUT_COUNT (R30). -/
def State.outCount (s : State) : Nat := s.out.length

/-- OUT holds OUT_DEPTH values already (R171, R205); never, with OUT_DEPTH = unbounded. -/
def State.outFull (s : State) : Bool :=
  match s.cfg.outDepth with
  | none => false
  | some d => s.out.length == d

/-! ### The step counter (R38) -/

/-- STEP_COUNT is at its last value, 2^64 − 1: the spec states no value after it (R38, D5). -/
def State.countFull (s : State) : Bool := s.stepCount == BitVec.allOnes 64

/-- STEP_COUNT after one more completed instruction (R38). Past 2^64 − 1, a free value (log 4). -/
def State.countNext (s : State) : BitVec 64 :=
  if s.countFull then Config.freeStepCount s.freeIdx else s.stepCount + 1

/-- The count of free values after one more completed instruction (log 4). -/
def State.freeNext (s : State) : Nat := if s.countFull then s.freeIdx + 1 else s.freeIdx

/-- Count one completed instruction (R38, R105). -/
def State.countStep (s : State) : State := { s with stepCount := s.countNext, freeIdx := s.freeNext }

/-- The budget test of R102: MAX_STEPS is given and STEP_COUNT has reached it. -/
def State.budgetSpent (s : State) : Bool :=
  match s.cfg.maxSteps with
  | none => false
  | some n => s.stepCount.toNat == n

/-! ### Ending a run -/

/-- The halt test of R101: no complete (opcode, operand) pair starts at pc. -/
def State.atEnd (s : State) : Bool := decide (s.len ≤ s.pc + 1)

/-- `Halt()` of R12: the run ends normally; only STATE changes (R101). -/
def State.halt (s : State) : State := { s with runState := .halted }

/-- The `info` of a raised fault (R203): which values FAULT_IP and FAULT_INSN record. -/
inductive FaultInfo where
  /-- Raised by an instruction: its pc and its two words (INVALID_OPERAND, OUTPUT_OVERFLOW). -/
  | insn (pc : Nat) (op operand : Word3)
  /-- Raised in a step before the fetch: the pc of the instruction not begun (STEP_BUDGET_EXHAUSTED). -/
  | notBegun (pc : Nat)
  /-- Raised by START (MALFORMED_PROGRAM, NOT_LOADED). -/
  | atStart
deriving DecidableEq, Repr

/-- What FAULT_IP records (R36, R203). -/
def FaultInfo.ip : FaultInfo → Nat
  | .insn pc _ _ => pc
  | .notBegun pc => pc
  | .atStart => 0

/-- What FAULT_INSN records (R37, R203). -/
def FaultInfo.pair : FaultInfo → PairView
  | .insn _ op operand => pairOf op operand
  | .notBegun _ => 0
  | .atStart => 0

/-- A fault that has been raised: `raise Fault(cause, info)` of R12. -/
structure Raised where
  cause : Cause
  info : FaultInfo
deriving DecidableEq, Repr

/-- TAKING A FAULT (R203): STATE, CAUSE, FAULT_IP and FAULT_INSN are written and nothing else changes. There is no
return from a fault beside it: no instruction leaves FAULTED, only RESET and START do (R210). -/
def State.takeFault (s : State) (f : Raised) : State :=
  { s with runState := .faulted, cause := f.cause, faultIp := f.info.ip, faultInsn := f.info.pair }

/-! ### Executing one instruction (R104, R105) -/

/-- How an instruction leaves pc (R104). -/
inductive NextPc where
  | advance
  | jump (t : Nat)
deriving DecidableEq, Repr

/-- What an `Exec` function returns when it raises no fault (R104): register writes, an optional output value, and
either "advance" or "jump to t". -/
structure Result where
  writes : List (Reg × Word)
  emit : Option Word3
  next : NextPc
deriving DecidableEq, Repr

/-- A result that writes one register and advances. -/
def Result.ofWrite (r : Reg) (v : Word) : Result := { writes := [(r, v)], emit := none, next := .advance }

/-- pc after a result (R105). -/
def State.nextPc (s : State) : NextPc → Nat
  | .advance => s.pc + 2
  | .jump t => t

/-- COMMIT (R105): in one update, the register writes, the output value, pc and STEP_COUNT. STATE stays as it is. -/
def State.commit (s : State) (r : Result) : State :=
  let written := r.writes.foldl (fun u w => u.setReg w.1 w.2) s
  let emitted := match r.emit with
    | none => written
    | some d => written.emit d
  { emitted with pc := s.nextPc r.next }.countStep

/-- The end of every instruction: a result is committed (R105), a raised fault is taken (R104, R203). Both are next
states. -/
def State.retire (s : State) : Except Raised Result → Host.Outcome State Fault Refusal
  | .ok r => .next (s.commit r)
  | .error f => .next (s.takeFault f)

/-- The fault an instruction raises at pc, with its own two words as info (R75, R171, R203). -/
def State.raised (s : State) (c : Cause) (i : Instr) : Raised := ⟨c, .insn s.pc i.opcode i.operand⟩

/-! ### Fetch (R103) -/

/-- The two words of the instruction at pc, wherever pc is (R26, R53, R55, R103). -/
def State.fetch (s : State) : Except Fault (Word3 × Word3) :=
  match s.memRead s.pc, s.memRead (s.pc + 1) with
  | .ok op, .ok operand => .ok (op, operand)
  | .error f, _ => .error f
  | .ok _, .error f => .error f

/-- The state with one instruction's words stored where the next step fetches, LEN covering them, P_LD set and a run in
progress (log 7). -/
def State.placeInstr (s : State) (op operand : Word3) : State :=
  { s with
    prog := Memory.write (Memory.write s.prog s.pc op) (s.pc + 1) operand
    len := max s.len (s.pc + 2)
    pLd := true
    runState := .running }

end Sys2Proof.Machine
end

