-- ==== Sys2Proof/Machine/Operands.lean ====
section
/-! DEFINITION. The operand forms (30_encoding.md R74, R75, R76; 20_memory.md R63 says there are no others). -/

namespace Sys2Proof.Machine

/-- `zext_64` of a 3-bit value (R10). -/
def zext64 (w : Word3) : Word := w.setWidth 64

/-- `v[2:0]`, which is `v mod 8` (R10, R11). -/
def low3 (v : Word) : Word3 := v.setWidth 3

/-- The literal operand of bxl as a 64-bit value (R74). -/
def literal (w : Word3) : Word := zext64 w

/-- The literal operand of jnz as a word index (R74). -/
def target (w : Word3) : Nat := w.toNat

/-- `Combo(v)` (R75): the value of the combo operand `k` of the instruction `i`, read in the state before the
instruction (R13); code 7 raises INVALID_OPERAND with the instruction's words. -/
def State.resolve (s : State) (i : Instr) : Combo → Except Raised Word
  | .lit v => .ok (v.setWidth 64)
  | .reg r => .ok (s.getReg r)
  | .reserved => .error (s.raised .invalidOperand i)

end Sys2Proof.Machine
end

