-- ==== Sys2Proof/Machine/AluB.lean ====
section
/-! DEFINITION. The B-register ALU family: bxl, bst, bxc (42_alu_b.md). -/

namespace Sys2Proof.Machine

/-- bxl: `B ← B XOR literal` (R140); the operand is never combo-resolved. -/
def execBxl (l : Word3) (s : State) : Host.Outcome State Fault Refusal :=
  s.retire (.ok (.ofWrite .B (s.b ^^^ literal l)))

/-- bst: `B ← combo mod 8` (R141). -/
def execBst (k : Combo) (s : State) : Host.Outcome State Fault Refusal :=
  s.retire ((s.resolve (.bst k) k).map fun v => .ofWrite .B (zext64 (low3 v)))

/-- bxc: `B ← B XOR C` (R142); the operand word is fetched, advanced over and not read, so the meaning has none. -/
def execBxc (s : State) : Host.Outcome State Fault Refusal :=
  s.retire (.ok (.ofWrite .B (s.b ^^^ s.c)))

end Sys2Proof.Machine
end

