-- ==== Sys2Proof/Machine/Flags.lean ====
section
/-! DEFINITION. The machine has no flags or condition codes (10_state.md R29): no instruction computes one, and the one
condition is jnz's test of A. The flags there are, the loaded flags, are the host's; this file gives them their places in
STATUS (R34). -/

namespace Sys2Proof.Machine

/-- jnz's condition, `A ≠ 0` (R29, R160). -/
def State.jumpCondition (s : State) : Bool := s.a != 0

/-- The code of STATE, bits 1:0 of STATUS (R34). -/
def RunState.code : RunState → BitVec 2
  | .idle => 0
  | .running => 1
  | .halted => 2
  | .faulted => 3

/-- The code of CAUSE (R35, R200). -/
def Cause.code : Cause → BitVec 3
  | .noCause => 0
  | .invalidOperand => 1
  | .unknownOpcode => 2
  | .malformedProgram => 3
  | .stepBudgetExhausted => 4
  | .outputOverflow => 5
  | .notLoaded => 6

/-- STATUS (R34): bits 1:0 STATE, bit 2 A_LD, bit 3 B_LD, bit 4 C_LD, bit 5 P_LD. -/
def State.status (s : State) : BitVec 6 :=
  BitVec.ofBool s.pLd ++ BitVec.ofBool s.cLd ++ BitVec.ofBool s.bLd ++ BitVec.ofBool s.aLd ++ s.runState.code

/-- The loaded flag of a general register (R23). -/
def State.loaded (s : State) : Reg → Bool
  | .A => s.aLd
  | .B => s.bLd
  | .C => s.cLd

/-- Set the loaded flag of a general register (R23, R243). -/
def State.setLoaded (s : State) (r : Reg) : State :=
  match r with
  | .A => { s with aLd := true }
  | .B => { s with bLd := true }
  | .C => { s with cLd := true }

/-- A_LD and B_LD and C_LD and P_LD (R207, R246). -/
def State.allLoaded (s : State) : Bool := s.aLd && s.bLd && s.cLd && s.pLd

end Sys2Proof.Machine
end

