-- ==== Sys2Proof/Machine/Jump.lean ====
section
/-! DEFINITION. Control transfer: jnz (43_jump.md). -/

namespace Sys2Proof.Machine

/-- jnz: jump to the literal word index if A is not zero, else advance (R160). Any target 0 … 7 is legal: there is no
alignment and no range check (R161). -/
def execJnz (t : Word3) (s : State) : Host.Outcome State Fault Refusal :=
  s.retire (.ok { writes := [], emit := none, next := if s.jumpCondition then .jump (target t) else .advance })

end Sys2Proof.Machine
end

