-- ==== Sys2Proof/Machine/Output.lean ====
section
/-! DEFINITION. Output: out (44_output.md). -/

namespace Sys2Proof.Machine

/-- The result of out for the resolved operand `v` (R171): OUTPUT_OVERFLOW when OUT is full, else the value `v mod 8`. -/
def State.emitResult (s : State) (i : Instr) (v : Word) : Except Raised Result :=
  if s.outFull then .error (s.raised .outputOverflow i)
  else .ok { writes := [], emit := some (low3 v), next := .advance }

/-- out: append `combo mod 8` to OUT (R171). The operand is resolved first, so INVALID_OPERAND beats OUTPUT_OVERFLOW
(R208). -/
def execOut (k : Combo) (s : State) : Host.Outcome State Fault Refusal :=
  s.retire ((s.resolve (.out k) k).bind (s.emitResult (.out k)))

end Sys2Proof.Machine
end

