-- ==== Sys2Proof/Machine/Shift.lean ====
section
/-! DEFINITION. The shift-right family: adv, bdv, cdv (41_shift.md). -/

namespace Sys2Proof.Machine

/-- `SHR(a, n) = floor(a / 2^n)` (R120): a logical right shift for counts below 64 and 0 for every other; the count is
never masked (D2). -/
def shr (a n : Word) : Word := if n.toNat < 64 then a >>> n.toNat else 0

/-- adv: `A ← A >> combo` (R121). -/
def execAdv (k : Combo) (s : State) : Host.Outcome State Fault Refusal :=
  s.retire ((s.resolve (.adv k) k).map fun n => .ofWrite .A (shr s.a n))

/-- bdv: `B ← A >> combo` (R122). -/
def execBdv (k : Combo) (s : State) : Host.Outcome State Fault Refusal :=
  s.retire ((s.resolve (.bdv k) k).map fun n => .ofWrite .B (shr s.a n))

/-- cdv: `C ← A >> combo` (R123). -/
def execCdv (k : Combo) (s : State) : Host.Outcome State Fault Refusal :=
  s.retire ((s.resolve (.cdv k) k).map fun n => .ofWrite .C (shr s.a n))

end Sys2Proof.Machine
end

