-- ==== Sys2Proof/Machine/Dispatch.lean ====
section
/-! DEFINITION. The meaning of every instruction, one arm each (40_cycle.md R104; 30_encoding.md R77). -/

namespace Sys2Proof.Machine

def exec (i : Instr) (s : State) : Host.Outcome State Fault Refusal :=
  match i with
  | .adv k => Sys2Proof.Machine.execAdv k s
  | .bxl l => Sys2Proof.Machine.execBxl l s
  | .bst k => Sys2Proof.Machine.execBst k s
  | .jnz t => Sys2Proof.Machine.execJnz t s
  | .bxc _ => Sys2Proof.Machine.execBxc s
  | .out k => Sys2Proof.Machine.execOut k s
  | .bdv k => Sys2Proof.Machine.execBdv k s
  | .cdv k => Sys2Proof.Machine.execCdv k s

end Sys2Proof.Machine
end

