-- ==== Sys2Proof/Machine/Cycle.lean ====
section
/-! DEFINITION. The fetch-decode-execute step (40_cycle.md R100 to R106), called by Machine/Step.lean. -/

namespace Sys2Proof.Machine

/-- Fetch, decode and execute the instruction at pc (R103, R104). -/
def State.runInstr (s : State) : Host.Outcome State Fault Refusal :=
  match s.fetch with
  | .error f => .fault f
  | .ok (op, operand) => exec (decodePair op operand) s

/-- The tests of one step of a RUNNING machine in R208's order: the halt test (R101), the budget test (R102), then the
instruction (R103 to R105). -/
def State.runStep (s : State) : Host.Outcome State Fault Refusal :=
  if s.atEnd then .next s.halt
  else if s.budgetSpent then .next (s.takeFault ⟨.stepBudgetExhausted, .notBegun s.pc⟩)
  else s.runInstr

/-- One step. The machine steps only while STATE = RUNNING (R100); elsewhere there is no step (log 6). -/
def State.cycle (s : State) : Host.Outcome State Fault Refusal :=
  if s.runState = .running then s.runStep else .refused (.notRunning s.runState)

end Sys2Proof.Machine
end

