-- ==== Sys2Proof/Machine/Step.lean ====
section
/-! DEFINITION. The step of the machine (40_cycle.md R100, R106), and the placing of one instruction where the next step
fetches. -/

namespace Sys2Proof.Machine

/-- One step of the machine (R100, R106). -/
def step (s : State) : Host.Outcome State Fault Refusal := s.cycle

/-- `s` with the instruction whose table bits are `w` at pc and a run in progress. The block fetches only from a program
that the host has loaded and started, so this stands for that load and START (log 7). -/
def State.withFetchWord (s : State) (nbits w : Nat) : State :=
  s.placeInstr (tablePair (w % 2 ^ nbits)).1 (tablePair (w % 2 ^ nbits)).2

end Sys2Proof.Machine
end

