-- ==== Sys2Proof/WellFormed.lean ====
section
/-! DEFINITION. The checks the spec puts on what is handed to the machine: the parameters (R8), a program (R206, R244)
and the legal encodings (R80). Every term of Instr has an encoding and every pair of words decodes to one (R78), so the
one check on an instruction is that it is no illegal encoding. -/

namespace Sys2Proof

/-- R8's constraints: PROG_MAX_LEN is even and at least 2, and IP_W is at least `bitlen(max(PROG_MAX_LEN, 7))`. -/
def Config.wellFormed (c : Config) : Bool :=
  c.progMaxLen % 2 == 0 && decide (2 ≤ c.progMaxLen) && decide (bitlen (max c.progMaxLen 7) ≤ c.ipW)

/-- What START asks of the program's length (R206, R246; conflicts C4, C6): even, and at least 2. -/
def lengthWellFormed (len : Nat) : Bool := len % 2 == 0 && decide (2 ≤ len)

/-- A program that LOAD_PROGRAM accepts (R244) and START runs (R206). -/
def programWellFormed (c : Config) (ws : List Word3) : Bool :=
  lengthWellFormed ws.length && decide (ws.length ≤ c.progMaxLen)

/-- Not one of the five illegal encodings, `adv 7`, `bst 7`, `out 7`, `bdv 7`, `cdv 7` (R80). An illegal encoding still
decodes to its instruction and raises INVALID_OPERAND when executed. -/
def Instr.legal (i : Instr) : Bool := i.combo? != some .reserved

end Sys2Proof
end

