-- ==== Sys2Proof/Machine/Assembly.lean ====
section
/-! DEFINITION. The assembly language (30_encoding.md R82, R83) over lists of characters: one instruction a line. It is
no part of the machine's state or step. What R83 does not say of spaces, empty lines
and a line without its operand is fixed by log 15. -/

namespace Sys2Proof.Machine

/-- The mnemonic of an instruction (R77, R82). -/
def mnemonic : Instr → List Char
  | .adv _ => ['a', 'd', 'v']
  | .bxl _ => ['b', 'x', 'l']
  | .bst _ => ['b', 's', 't']
  | .jnz _ => ['j', 'n', 'z']
  | .bxc _ => ['b', 'x', 'c']
  | .out _ => ['o', 'u', 't']
  | .bdv _ => ['b', 'd', 'v']
  | .cdv _ => ['c', 'd', 'v']

/-- The opcode word a mnemonic stands for (R77). -/
def opcodeOfMnemonic (m : List Char) : Option Word3 :=
  if m = ['a', 'd', 'v'] then some 0
  else if m = ['b', 'x', 'l'] then some 1
  else if m = ['b', 's', 't'] then some 2
  else if m = ['j', 'n', 'z'] then some 3
  else if m = ['b', 'x', 'c'] then some 4
  else if m = ['o', 'u', 't'] then some 5
  else if m = ['b', 'd', 'v'] then some 6
  else if m = ['c', 'd', 'v'] then some 7
  else none

/-- An operand word as one decimal digit (R83). -/
def digitOf (w : Word3) : Char := Char.ofNat (48 + w.toNat)

/-- The operand word of one decimal digit 0 … 7 (R83). -/
def operandOfToken : List Char → Option Word3
  | [d] => if 48 ≤ d.toNat ∧ d.toNat ≤ 55 then some (BitVec.ofNat 3 (d.toNat - 48)) else none
  | _ => none

/-- The operand the assembler writes for bxc unless told otherwise (R83). -/
def bxcDefault : Instr := .bxc 0

/-- The line of an instruction: the mnemonic, a space and the operand digit, "the word it finds" for bxc too (R83). -/
def disassemble (i : Instr) : List Char := mnemonic i ++ ' ' :: [digitOf i.operand]

/-- Why the assembler rejects a line. -/
inductive AsmError where
  /-- The line begins with no mnemonic of R82. -/
  | unknownMnemonic
  /-- The operand is not one decimal digit 0 … 7 (R83), or is absent (log 15, DESIGN CHOICE: R83 does not say what an
  assembler does then). -/
  | badOperand
  /-- Text other than a comment after the operand. -/
  | trailingText
deriving DecidableEq, Repr

/-- One assembled instruction, and whether the assembler warns of combo operand 7, which it does not reject (R83). -/
structure Assembled where
  instr : Instr
  warns : Bool
deriving DecidableEq, Repr

/-- Assemble one line (R83). Text after `;` is a comment; a line with nothing else holds no instruction,
and a mnemonic without its operand digit is rejected (both log 15). -/
def assembleLine (line : List Char) : Except AsmError (Option Assembled) :=
  let text := (line.takeWhile (· != ';')).dropWhile (· == ' ')
  if text.isEmpty then .ok none
  else
    match opcodeOfMnemonic (text.takeWhile (· != ' ')) with
    | none => .error .unknownMnemonic
    | some op =>
      let operands := (text.dropWhile (· != ' ')).dropWhile (· == ' ')
      match operandOfToken (operands.takeWhile (· != ' ')) with
      | none => .error .badOperand
      | some w =>
        if (operands.dropWhile (· != ' ')).all (· == ' ') then
          .ok (some ⟨decodePair op w, !(decodePair op w).legal⟩)
        else .error .trailingText

/-- The program image of a text: the words of its instructions in order (R83, R84). -/
def assemble : List (List Char) → Except AsmError (List Word3)
  | [] => .ok []
  | line :: rest =>
    match assembleLine line, assemble rest with
    | .error e, _ => .error e
    | .ok _, .error e => .error e
    | .ok none, .ok ws => .ok ws
    | .ok (some x), .ok ws => .ok (encode x.instr ++ ws)

end Sys2Proof.Machine
end

