-- ==== Sys2Proof/Machine/HostInterface.lean ====
section
/-! DEFINITION. What the host can do to the block: the transactions of 70_reset_and_hazards.md R240 to R247, the
host-visible registers of 10_state.md R33, the boot order (R249), and what a run leaves (40_cycle.md R109). A transaction
is a function of the state that lands between two steps (log 9). -/

namespace Sys2Proof.Machine

/-! ### The host-visible registers (R33) -/

/-- The registers READ can name (R33). -/
inductive BlockReg where
  | A | B | C | LEN | STATUS | CAUSE | FAULT_IP | FAULT_INSN | STEP_COUNT | OUT_COUNT | OUT_DATA | PC
deriving DecidableEq, Repr

/-- The host register of a number, 0x00 … 0x0B; none for any other number (R33). -/
def BlockReg.ofNumber : Nat → Option BlockReg
  | 0x00 => some .A
  | 0x01 => some .B
  | 0x02 => some .C
  | 0x03 => some .LEN
  | 0x04 => some .STATUS
  | 0x05 => some .CAUSE
  | 0x06 => some .FAULT_IP
  | 0x07 => some .FAULT_INSN
  | 0x08 => some .STEP_COUNT
  | 0x09 => some .OUT_COUNT
  | 0x0A => some .OUT_DATA
  | 0x0B => some .PC
  | _ => none

/-- The width R33 gives a register, in bits; `none` is OUT_COUNT's "unbounded" (log 10). -/
def BlockReg.width (c : Config) : BlockReg → Option Nat
  | .A => some 64
  | .B => some 64
  | .C => some 64
  | .LEN => some c.ipW
  | .STATUS => some 6
  | .CAUSE => some 3
  | .FAULT_IP => some c.ipW
  | .FAULT_INSN => some 6
  | .STEP_COUNT => some 64
  | .OUT_COUNT => c.outDepth.map bitlen
  | .OUT_DATA => some 3
  | .PC => some c.ipW

/-- The value of a general register whose loaded flag is set; none otherwise (R23, R247). -/
def State.readLoaded (s : State) (r : Reg) : Option Nat :=
  if s.loaded r then some (s.getReg r).toNat else none

/-- The current value of a host register, as an unsigned number; `none` is the "no value" of R247. -/
def State.readReg (s : State) : BlockReg → Option Nat
  | .A => s.readLoaded .A
  | .B => s.readLoaded .B
  | .C => s.readLoaded .C
  | .LEN => some s.len
  | .STATUS => some s.status.toNat
  | .CAUSE => some s.cause.code.toNat
  | .FAULT_IP => some s.faultIp
  | .FAULT_INSN => some s.faultInsn.toNat
  | .STEP_COUNT => some s.stepCount.toNat
  | .OUT_COUNT => some s.outCount
  | .OUT_DATA => s.outData.map BitVec.toNat
  | .PC => some s.pc

/-! ### The transactions (R242) -/

/-- A transaction of the host (R242). A word of LOAD_PROGRAM is 3 bits and a value of WRITE_REG 64 bits, so no other
value can be presented (R243, R244). -/
inductive Transaction where
  | reset
  | writeReg (r : Reg) (v : Word)
  | loadProgram (ws : List Word3)
  | start
  | read (n : Nat)
  | readOutput
deriving DecidableEq, Repr

/-- What the host is told. -/
inductive Reply where
  /-- The transaction's condition failed: it had no effect at all (R242, R245). -/
  | refused
  /-- A RESET, WRITE_REG, LOAD_PROGRAM or START that was accepted. -/
  | accepted
  /-- The value of a register (R247). -/
  | value (v : Nat)
  /-- READ of a register that holds no value (R247). -/
  | noValue
  /-- The list OUT in append order (R247). -/
  | output (ws : List Word3)
deriving DecidableEq, Repr

/-- RESET (R240, R241): every piece of state to its value in R42. The parameters are not state and stay, and so does the
model's count of free values (log 11). -/
def State.hostReset (s : State) : State := { State.resetWith s.cfg with freeIdx := s.freeIdx }

/-- The effect of an accepted WRITE_REG (R243). -/
def State.hostWriteReg (s : State) (r : Reg) (v : Word) : State := (s.setReg r v).setLoaded r

/-- The effect of an accepted LOAD_PROGRAM (R244). -/
def State.hostLoadProgram (s : State) (ws : List Word3) : State :=
  { s with prog := Memory.ofWords ws, len := ws.length, pLd := true }

/-- The launch of a run (R246, R248). -/
def State.launch (s : State) : State :=
  { s with pc := 0, out := [], stepCount := 0, cause := .noCause, faultIp := 0, faultInsn := 0, runState := .running }

/-- The effect of a START that is not refused (R246): NOT_LOADED beats MALFORMED_PROGRAM (R208). -/
def State.hostStart (s : State) : State :=
  if !s.allLoaded then s.takeFault ⟨.notLoaded, .atStart⟩
  else if !lengthWellFormed s.len then s.takeFault ⟨.malformedProgram, .atStart⟩
  else s.launch

/-- What an accepted READ answers (R247). -/
def State.readReply (s : State) (r : BlockReg) : Reply :=
  match s.readReg r with
  | some v => .value v
  | none => .noValue

/-- READ(n) is accepted for STATUS always and for any other register when STATE ≠ RUNNING (R41, R247); a number that
names no register is refused (log 9). -/
def State.hostRead (s : State) (n : Nat) : Reply :=
  match BlockReg.ofNumber n with
  | none => .refused
  | some r => if r = .STATUS ∨ s.runState ≠ .running then s.readReply r else .refused

/-- A transaction's effect and reply (R41, R242, R245). READ has no side effect (R247). -/
def State.transact (s : State) : Transaction → State × Reply
  | .reset => (s.hostReset, .accepted)
  | .writeReg r v => if s.runState = .running then (s, .refused) else (s.hostWriteReg r v, .accepted)
  | .loadProgram ws =>
    if s.runState ≠ .running ∧ ws.length ≤ s.cfg.progMaxLen then (s.hostLoadProgram ws, .accepted) else (s, .refused)
  | .start => if s.runState = .running then (s, .refused) else (s.hostStart, .accepted)
  | .read n => (s, s.hostRead n)
  | .readOutput => if s.runState = .running then (s, .refused) else (s, .output s.out)

/-- The state after a list of transactions, first to last. -/
def State.transactAll (s : State) (ts : List Transaction) : State := ts.foldl (fun u t => (u.transact t).1) s

/-- The loads of the boot order, steps (1) and (2) of R249; START follows them. -/
def bootLoads (ws : List Word3) (a b c : Word) : List Transaction :=
  [.loadProgram ws, .writeReg .A a, .writeReg .B b, .writeReg .C c]

/-! ### What a run leaves (R109) -/

/-- What an ended run gives the host (R109). -/
inductive RunEnd where
  /-- A normally ended run: the final registers and OUT. -/
  | result (a b c : Word) (out : List Word3)
  /-- A faulted run: its fault, and neither registers nor output. -/
  | failed (cause : Cause) (ip : Nat) (insn : PairView)
deriving DecidableEq, Repr

/-- What the block holds of the last run: nothing while IDLE or RUNNING (R109, R250). -/
def State.runEnd (s : State) : Option RunEnd :=
  match s.runState with
  | .idle => none
  | .running => none
  | .halted => some (.result s.a s.b s.c s.out)
  | .faulted => some (.failed s.cause s.faultIp s.faultInsn)

end Sys2Proof.Machine
end

