-- ==== Sys2Proof/Safety.lean ====
section
/-! DEFINITION. The terms the statements use: the invariant of the states a block can be in, the block together with its
host, the register table of 10_state.md R22, the combo table of R75 by number, and the source's machine with unbounded
registers (R21). -/

namespace Sys2Proof.Machine

/-! ### The invariant -/

/-- The faults an instruction raises, which record their words (R37). -/
def Cause.ofInsn (c : Cause) : Bool := c == .invalidOperand || c == .outputOverflow

/-- The faults raised in a step, which record pc (R36). -/
def Cause.inStep (c : Cause) : Bool := c.ofInsn || c == .stepBudgetExhausted

/-- FAULT_INSN as R37 and R200 say for each cause: an illegal encoding for INVALID_OPERAND, an out for OUTPUT_OVERFLOW,
and 0 for every other. -/
def Cause.insnOk (c : Cause) (p : PairView) : Bool :=
  match c with
  | .invalidOperand => p ∈ [0o07#6, 0o27#6, 0o57#6, 0o67#6, 0o77#6]
  | .outputOverflow => p.toNat / 8 == 5
  | .noCause => p == 0
  | .unknownOpcode => p == 0
  | .malformedProgram => p == 0
  | .stepBudgetExhausted => p == 0
  | .notLoaded => p == 0

/-- What holds of every state the block can be in, from power-on, whatever the host does. -/
structure State.Inv (s : State) : Prop where
  /-- The parameters meet R8's constraints. -/
  cfg_ok : s.cfg.wellFormed = true
  /-- PROG holds exactly the words at the indexes below LEN (R32, R50, R244), in canonical form. -/
  prog_ok : s.prog.map (·.1) = List.range s.len
  /-- LEN ≤ PROG_MAX_LEN (R32). -/
  len_le : s.len ≤ s.cfg.progMaxLen
  /-- With no program loaded LEN is 0 (R42). -/
  unloaded : s.pLd = false → s.len = 0
  /-- pc stays within what IP_W bits hold (R27). -/
  pc_le : s.pc ≤ max s.cfg.progMaxLen 7
  /-- During a run, pc ≤ max(LEN, 7) (R27). -/
  pc_run : s.runState = .running → s.pc ≤ max s.len 7
  /-- OUT holds at most OUT_DEPTH values (R31). -/
  out_le : ∀ d, s.cfg.outDepth = some d → s.out.length ≤ d
  /-- A run completes at most MAX_STEPS instructions (R204); a budget of 2^64 or more is one STEP_COUNT cannot reach. -/
  count_le : ∀ n, s.cfg.maxSteps = some n → n < 2 ^ 64 → s.stepCount.toNat ≤ n
  /-- A run is in progress only with everything loaded (R207) and a well-formed length (R206). -/
  run_ok : s.runState = .running → s.allLoaded = true ∧ lengthWellFormed s.len = true
  /-- Before the first run pc, OUT and STEP_COUNT are as reset left them (R34, R42). -/
  idle_ok : s.runState = .idle → s.pc = 0 ∧ s.out = [] ∧ s.stepCount = 0
  /-- A fault is reported, never hidden: CAUSE ≠ NONE exactly in FAULTED (R35, R211). -/
  faulted_iff : s.runState = .faulted ↔ s.cause ≠ .noCause
  /-- UNKNOWN_OPCODE is never raised (R202). -/
  cause_ok : s.cause ≠ .unknownOpcode
  /-- FAULT_IP is the pc of the faulting step, and 0 for NONE and the faults of START (R36). -/
  ip_ok : (s.cause.inStep = true → s.faultIp = s.pc) ∧ (s.cause.inStep = false → s.faultIp = 0)
  /-- FAULT_INSN is as R37 says. -/
  insn_ok : s.cause.insnOk s.faultInsn = true

/-! ### The block and its host together -/

/-- What can happen next: a step of the block or a transaction of the host (R100, R242). -/
inductive Event where
  | step
  | transaction (t : Transaction)
deriving DecidableEq, Repr

/-- The state after an event, if the event can happen. -/
def State.after (s : State) : Event → Option State
  | .step =>
    match step s with
    | .next t => some t
    | .fault _ => none
    | .refused _ => none
  | .transaction t => some (s.transact t).1

/-- The states a block with well-formed parameters can be in, whatever its host does. -/
inductive State.Reachable : State → Prop where
  | power (cfg : Config) (h : cfg.wellFormed = true) : State.Reachable (State.resetWith cfg)
  | event (s t : State) (e : Event) (hs : State.Reachable s) (he : s.after e = some t) : State.Reachable t

/-- The state after `k` steps of the block, if it takes that many. -/
def State.steps : Nat → State → Option State
  | 0, s => some s
  | k + 1, s =>
    match step s with
    | .next t => State.steps k t
    | .fault _ => none
    | .refused _ => none

/-- What a run works on and gives: the program, the registers, pc, OUT and STATE, under the parameters. Not among it are
the loaded flags and the control registers CAUSE, FAULT_IP, FAULT_INSN and STEP_COUNT (R40). -/
def State.visible (s : State) : Word × Word × Word × Nat × List Word3 × RunState × Memory × Nat × Config :=
  (s.a, s.b, s.c, s.pc, s.out, s.runState, s.prog, s.len, s.cfg)

/-! ### The register table of R22 and the combo table of R75, as numbers -/

end Sys2Proof.Machine

namespace Sys2Proof

/-- The general registers an instruction reads, directly ("r") or through a combo operand that names them ("c") (R22). -/
def Instr.reads (i : Instr) (r : Reg) : Bool :=
  match i with
  | .adv k => r == .A || k == .reg r
  | .bxl _ => r == .B
  | .bst k => k == .reg r
  | .jnz _ => r == .A
  | .bxc _ => r == .B || r == .C
  | .out k => k == .reg r
  | .bdv k => r == .A || k == .reg r
  | .cdv k => r == .A || k == .reg r

/-- The general register an instruction writes ("w") when it completes (R22). -/
def Instr.writes (i : Instr) (r : Reg) : Bool :=
  match i with
  | .adv _ => r == .A
  | .bxl _ => r == .B
  | .bst _ => r == .B
  | .jnz _ => false
  | .bxc _ => r == .B
  | .out _ => false
  | .bdv _ => r == .B
  | .cdv _ => r == .C

end Sys2Proof

namespace Sys2Proof.Machine

/-- R75 by the number of the code: the value of combo code `v`; none for 7, which must fail. -/
def State.comboNumber (s : State) (v : Nat) : Option Nat :=
  if v ≤ 3 then some v
  else if v = 4 then some s.a.toNat
  else if v = 5 then some s.b.toNat
  else if v = 6 then some s.c.toNat
  else none

/-! ### The source's machine with unbounded registers (R21; log 16) -/

/-- The machine of the source: registers that are natural numbers of any size, and words as numbers. -/
structure Unbounded where
  a : Nat
  b : Nat
  c : Nat
  pc : Nat
  out : List Nat
  runState : RunState
deriving DecidableEq, Repr

/-- Combo resolution over unbounded registers; none is the invalid-operand error. -/
def Unbounded.combo (u : Unbounded) (v : Nat) : Option Nat :=
  if v ≤ 3 then some v
  else if v = 4 then some u.a
  else if v = 5 then some u.b
  else if v = 6 then some u.c
  else none

/-- An instruction that uses its combo operand, or ends the run in an error. -/
def Unbounded.withCombo (u : Unbounded) (v : Nat) (f : Nat → Unbounded) : Unbounded :=
  match u.combo v with
  | some n => f n
  | none => { u with runState := .faulted }

/-- The source's opcode table on natural numbers (the effects quoted in R121 to R171). -/
def Unbounded.execute (u : Unbounded) (op operand : Nat) : Unbounded :=
  match op with
  | 0 => u.withCombo operand fun n => { u with a := u.a / 2 ^ n, pc := u.pc + 2 }
  | 1 => { u with b := u.b ^^^ operand, pc := u.pc + 2 }
  | 2 => u.withCombo operand fun n => { u with b := n % 8, pc := u.pc + 2 }
  | 3 => { u with pc := if u.a ≠ 0 then operand else u.pc + 2 }
  | 4 => { u with b := u.b ^^^ u.c, pc := u.pc + 2 }
  | 5 => u.withCombo operand fun n => { u with out := u.out ++ [n % 8], pc := u.pc + 2 }
  | 6 => u.withCombo operand fun n => { u with b := u.a / 2 ^ n, pc := u.pc + 2 }
  | _ => u.withCombo operand fun n => { u with c := u.a / 2 ^ n, pc := u.pc + 2 }

/-- One step of the source's loop over a program of words; none when no run is in progress. -/
def Unbounded.step (words : List Nat) (u : Unbounded) : Option Unbounded :=
  if u.runState = .running then
    if words.length ≤ u.pc + 1 then some { u with runState := .halted }
    else some (u.execute (words.getD u.pc 0) (words.getD (u.pc + 1) 0))
  else none

/-- `k` steps of the source's loop. -/
def Unbounded.run (words : List Nat) : Nat → Unbounded → Option Unbounded
  | 0, u => some u
  | k + 1, u => (u.step words).bind (Unbounded.run words k)

/-- What the source's machine sees of the block. -/
def State.unbounded (s : State) : Unbounded where
  a := s.a.toNat
  b := s.b.toNat
  c := s.c.toNat
  pc := s.pc
  out := s.out.map BitVec.toNat
  runState := s.runState

/-- The program in the store as a list of numbers. -/
def State.words (s : State) : List Nat := s.prog.map fun p => p.2.toNat

end Sys2Proof.Machine
end

