-- ==== Sys2Proof/Certificates/Slice0/Obligations.lean ====
section
/-! DEFINITION. The statements for the provers. Each docstring names the rule of spec/ that the statement formalises. -/

open Sys2Proof Sys2Proof.Machine

/-! ### The eight instructions -/

/-- R121, adv, for every state and operand word: its encoding; with a combo code 0 … 6 it completes with
`A = floor(A / 2^combo)`, pc + 2 and STEP_COUNT counted, and nothing else changed; with 7 it takes INVALID_OPERAND. -/
def Obligations.AdvShiftsAIntoA : Prop :=
  ∀ (s : State) (w : Word3),
    decodePair 0 w = .adv (Combo.ofCode w) ∧
    (∀ n, s.comboNumber w.toNat = some n →
      exec (.adv (Combo.ofCode w)) s =
        .next { s.countStep with a := BitVec.ofNat 64 (s.a.toNat / 2 ^ n), pc := s.pc + 2 }) ∧
    (w = 7 → exec (.adv (Combo.ofCode w)) s =
      .next { s with runState := .faulted, cause := .invalidOperand, faultIp := s.pc, faultInsn := pairOf 0 7 }) ∧
    (∀ t, exec (.adv (Combo.ofCode w)) s = .next t →
      (w = 0 → t.a = s.a) ∧ (w = 4 → t.a = 0) ∧ (w = 5 → 64 ≤ s.b.toNat → t.a = 0) ∧
      (w = 6 → 64 ≤ s.c.toNat → t.a = 0) ∧ (s.a = 0 → t.a = 0))

/-- R122, bdv: as adv, into B; A is not changed, and the count is read before B is written. -/
def Obligations.BdvShiftsAIntoB : Prop :=
  ∀ (s : State) (w : Word3),
    decodePair 6 w = .bdv (Combo.ofCode w) ∧
    (∀ n, s.comboNumber w.toNat = some n →
      exec (.bdv (Combo.ofCode w)) s =
        .next { s.countStep with b := BitVec.ofNat 64 (s.a.toNat / 2 ^ n), pc := s.pc + 2 }) ∧
    (w = 7 → exec (.bdv (Combo.ofCode w)) s =
      .next { s with runState := .faulted, cause := .invalidOperand, faultIp := s.pc, faultInsn := pairOf 6 7 }) ∧
    (∀ t, exec (.bdv (Combo.ofCode w)) s = .next t →
      t.a = s.a ∧ (w = 0 → t.b = s.a) ∧ (w = 5 → t.b.toNat = s.a.toNat / 2 ^ s.b.toNat) ∧ (w = 4 → t.b = 0))

/-- R123, cdv: as adv, into C; A is not changed, and the count is read before C is written. -/
def Obligations.CdvShiftsAIntoC : Prop :=
  ∀ (s : State) (w : Word3),
    decodePair 7 w = .cdv (Combo.ofCode w) ∧
    (∀ n, s.comboNumber w.toNat = some n →
      exec (.cdv (Combo.ofCode w)) s =
        .next { s.countStep with c := BitVec.ofNat 64 (s.a.toNat / 2 ^ n), pc := s.pc + 2 }) ∧
    (w = 7 → exec (.cdv (Combo.ofCode w)) s =
      .next { s with runState := .faulted, cause := .invalidOperand, faultIp := s.pc, faultInsn := pairOf 7 7 }) ∧
    (∀ t, exec (.cdv (Combo.ofCode w)) s = .next t →
      t.a = s.a ∧ (w = 0 → t.c = s.a) ∧ (w = 6 → t.c.toNat = s.a.toNat / 2 ^ s.c.toNat) ∧ (w = 4 → t.c = 0))

/-- R120, the shift function: floor division by a power of two for every count, the count never masked. -/
def Obligations.ShiftIsUnmaskedFloorDivision : Prop :=
  ∀ a n : Word,
    (shr a n).toNat = a.toNat / 2 ^ n.toNat ∧
    (n = 0 → shr a n = a) ∧
    (1 ≤ n.toNat → n.toNat ≤ 63 → shr a n = a >>> n.toNat) ∧
    (64 ≤ n.toNat → shr a n = 0) ∧
    (shr a n).toNat ≤ a.toNat

/-- R140, bxl: for every literal, 7 among them, B is XORed with it and no more of B than bits 2:0 changes; applying the
same bxl twice restores B. -/
def Obligations.BxlXorsLiteralIntoB : Prop :=
  ∀ (s : State) (w : Word3),
    decodePair 1 w = .bxl w ∧
    exec (.bxl w) s =
      .next { s.countStep with b := BitVec.ofNat 64 (s.b.toNat ^^^ w.toNat), pc := s.pc + 2 } ∧
    (∀ t, exec (.bxl w) s = .next t →
      t.b >>> 3 = s.b >>> 3 ∧ (w = 0 → t.b = s.b) ∧ (∀ u, exec (.bxl w) t = .next u → u.b = s.b))

/-- R141, bst: B becomes the combo value modulo 8; with 7 it takes INVALID_OPERAND. -/
def Obligations.BstReducesComboModEight : Prop :=
  ∀ (s : State) (w : Word3),
    decodePair 2 w = .bst (Combo.ofCode w) ∧
    (∀ n, s.comboNumber w.toNat = some n →
      exec (.bst (Combo.ofCode w)) s =
        .next { s.countStep with b := BitVec.ofNat 64 (n % 8), pc := s.pc + 2 }) ∧
    (w = 7 → exec (.bst (Combo.ofCode w)) s =
      .next { s with runState := .faulted, cause := .invalidOperand, faultIp := s.pc, faultInsn := pairOf 2 7 }) ∧
    (∀ t, exec (.bst (Combo.ofCode w)) s = .next t →
      (w ≠ 7 → t.b.toNat ≤ 7) ∧ (w.toNat ≤ 3 → t.b.toNat = w.toNat) ∧ (w = 4 → t.b.toNat = s.a.toNat % 8) ∧
      (w = 5 → t.b.toNat = s.b.toNat % 8) ∧ (w = 6 → t.b.toNat = s.c.toNat % 8))

/-- R142, bxc: B is XORed with C, whatever the operand word, 7 among them. -/
def Obligations.BxcXorsCIntoB : Prop :=
  ∀ (s : State) (w : Word3),
    decodePair 4 w = .bxc w ∧
    exec (.bxc w) s =
      .next { s.countStep with b := BitVec.ofNat 64 (s.b.toNat ^^^ s.c.toNat), pc := s.pc + 2 } ∧
    (∀ t, exec (.bxc w) s = .next t → t.c = s.c ∧ (s.b = s.c → t.b = 0) ∧ (s.c = 0 → t.b = s.b))

/-- R160, jnz: with A ≠ 0 pc becomes the literal and does not also advance; with A = 0 pc advances by 2; nothing else
but STEP_COUNT changes. A jnz to itself with A ≠ 0 loops for ever. -/
def Obligations.JnzJumpsWhenANonzero : Prop :=
  ∀ (s : State) (w : Word3),
    decodePair 3 w = .jnz w ∧
    (s.a ≠ 0 → exec (.jnz w) s = .next { s.countStep with pc := w.toNat }) ∧
    (s.a = 0 → exec (.jnz w) s = .next { s.countStep with pc := s.pc + 2 }) ∧
    (s.a ≠ 0 → s.runState = .running → s.cfg.maxSteps = none → s.fetch = .ok (3, w) → s.pc = w.toNat →
      ∀ k, ∃ t, s.steps k = some t ∧ t.runState = .running ∧ t.pc = s.pc ∧ t.a = s.a)

/-- R171, out: the combo value modulo 8 is appended to OUT and becomes OUT_DATA, unless OUT is full, when it takes
OUTPUT_OVERFLOW; with operand 7 it takes INVALID_OPERAND, full or not. -/
def Obligations.OutAppendsComboModEight : Prop :=
  ∀ (s : State) (w : Word3),
    decodePair 5 w = .out (Combo.ofCode w) ∧
    (∀ n, s.comboNumber w.toNat = some n → s.cfg.outDepth ≠ some s.out.length →
      exec (.out (Combo.ofCode w)) s =
        .next { s.countStep with out := s.out ++ [BitVec.ofNat 3 (n % 8)], pc := s.pc + 2 }) ∧
    (∀ n, s.comboNumber w.toNat = some n → s.cfg.outDepth = some s.out.length →
      exec (.out (Combo.ofCode w)) s =
        .next { s with runState := .faulted, cause := .outputOverflow, faultIp := s.pc, faultInsn := pairOf 5 w }) ∧
    (w = 7 → exec (.out (Combo.ofCode w)) s =
      .next { s with runState := .faulted, cause := .invalidOperand, faultIp := s.pc, faultInsn := pairOf 5 7 }) ∧
    (∀ t d, exec (.out (Combo.ofCode w)) s = .next t → t.out = s.out ++ [d] → t.outData = some d)

/-- R75: what each combo code resolves to, for any instruction that resolves it, and the fault of code 7. -/
def Obligations.ComboCodesResolve : Prop :=
  ∀ (s : State) (i : Instr),
    (∀ w : Word3, w.toNat ≤ 3 → s.resolve i (Combo.ofCode w) = .ok (w.setWidth 64)) ∧
    s.resolve i (Combo.ofCode 4) = .ok s.a ∧
    s.resolve i (Combo.ofCode 5) = .ok s.b ∧
    s.resolve i (Combo.ofCode 6) = .ok s.c ∧
    s.resolve i (Combo.ofCode 7) = .error ⟨.invalidOperand, .insn s.pc i.opcode i.operand⟩

/-- R80: the illegal encodings are exactly five pairs, each decodes to its instruction and raises INVALID_OPERAND when
executed, and none is refused at load time. -/
def Obligations.IllegalEncodingsAreExactlyFive : Prop :=
  (∀ op operand : Word3, (decodePair op operand).legal = false ↔
    (op, operand) ∈ ([(0, 7), (2, 7), (5, 7), (6, 7), (7, 7)] : List (Word3 × Word3))) ∧
  (∀ (i : Instr) (s : State), i.legal = false →
    exec i s = .next { s with runState := .faulted, cause := .invalidOperand, faultIp := s.pc,
                              faultInsn := i.pairView }) ∧
  (∀ (s : State) (ws : List Word3), s.runState ≠ .running → ws.length ≤ s.cfg.progMaxLen →
    (s.transact (.loadProgram ws)).2 = .accepted)

/-- R201: INVALID_OPERAND is taken, with FAULT_IP = pc and FAULT_INSN = {op, 7}, by a combo instruction with operand
word 7, by nothing else, and never but in the step that executes the pair. -/
def Obligations.InvalidOperandOnlyFromOperandSeven : Prop :=
  (∀ (i : Instr) (s t : State), i.legal = true → s.cause ≠ .invalidOperand → exec i s = .next t →
    t.cause ≠ .invalidOperand) ∧
  (∀ s t : State, s.cause ≠ .invalidOperand → step s = .next t → t.cause = .invalidOperand →
    ∃ op, s.fetch = .ok (op, 7) ∧ op ∈ ([0, 2, 5, 6, 7] : List Word3) ∧
      t = { s with runState := .faulted, cause := .invalidOperand, faultIp := s.pc, faultInsn := pairOf op 7 }) ∧
  (∀ (s : State) (op : Word3), s.runState = .running → s.len > s.pc + 1 → s.budgetSpent = false →
    s.fetch = .ok (op, 7) → op ∈ ([0, 2, 5, 6, 7] : List Word3) →
      step s = .next { s with runState := .faulted, cause := .invalidOperand, faultIp := s.pc,
                              faultInsn := pairOf op 7 })

/-- What every instruction leaves unchanged: the registers it does not write, the whole program store, the loaded flags,
the parameters, OUT but for out, and, unless it faults, STATE and the fault registers; a fault leaves pc, OUT, the
registers and STEP_COUNT alone (R22, R51, R105, R203). -/
def Obligations.ExecFrame : Prop :=
  ∀ (i : Instr) (s t : State), exec i s = .next t →
    (∀ r, i.writes r = false → t.getReg r = s.getReg r) ∧
    (∀ a, Memory.read t.prog a = Memory.read s.prog a) ∧
    t.len = s.len ∧ t.aLd = s.aLd ∧ t.bLd = s.bLd ∧ t.cLd = s.cLd ∧ t.pLd = s.pLd ∧ t.cfg = s.cfg ∧
    ((∀ k, i ≠ .out k) → t.out = s.out) ∧
    ((t.runState = s.runState ∧ t.cause = s.cause ∧ t.faultIp = s.faultIp ∧ t.faultInsn = s.faultInsn) ∨
     (t.runState = .faulted ∧ t.pc = s.pc ∧ t.out = s.out ∧ t.stepCount = s.stepCount ∧
      ∀ r, t.getReg r = s.getReg r))

/-- R22: an instruction's effect does not depend on a register the table does not list as read; a register it does not
list as written keeps its value; and registers change in no other way than by an instruction that writes them, a RESET or
a WRITE_REG. -/
def Obligations.RegisterReadWriteTable : Prop :=
  (∀ (i : Instr) (s : State) (r : Reg) (v : Word), i.reads r = false →
    ∃ t, exec i s = .next t ∧
      exec i (s.setReg r v) = .next (if i.writes r && i.legal then t else t.setReg r v)) ∧
  (∀ (i : Instr) (s t : State) (r : Reg), exec i s = .next t → i.writes r = false → t.getReg r = s.getReg r) ∧
  (∀ (s t : State) (r : Reg), step s = .next t → t.getReg r ≠ s.getReg r →
    ∃ op operand, s.fetch = .ok (op, operand) ∧ (decodePair op operand).writes r = true) ∧
  (∀ (s : State) (x : Transaction) (r : Reg), (s.transact x).1.getReg r ≠ s.getReg r →
    x = .reset ∨ ∃ v, x = .writeReg r v)

/-! ### The step -/

/-- R103, R104: when a RUNNING machine has a complete pair at pc and its budget is not spent, the step is exec of the
instruction that the two words at pc and pc + 1 decode to, at any pc, even or odd. -/
def Obligations.StepRunsDecodedInstruction : Prop :=
  ∀ (s : State) (op operand : Word3) (i : Instr),
    s.runState = .running → s.pc + 1 < s.len → s.budgetSpent = false →
    Memory.read s.prog s.pc = some op → Memory.read s.prog (s.pc + 1) = some operand →
    decode [op, operand] = .ok (i, []) → step s = exec i s

/-- R101, R110: the step of a RUNNING machine halts, changing STATE alone, exactly when `pc + 1 ≥ LEN`. -/
def Obligations.HaltExactlyWithoutPair : Prop :=
  ∀ s : State, s.runState = .running →
    (s.len ≤ s.pc + 1 → step s = .next { s with runState := .halted }) ∧
    (∀ t, step s = .next t → t.runState = .halted → s.len ≤ s.pc + 1)

/-- R102: the budget test, made when the halt test does not halt; with no budget it never fires. -/
def Obligations.StepBudgetTest : Prop :=
  ∀ s : State, s.runState = .running → s.pc + 1 < s.len →
    (s.cfg.maxSteps = some s.stepCount.toNat →
      step s = .next { s with runState := .faulted, cause := .stepBudgetExhausted, faultIp := s.pc,
                              faultInsn := 0 }) ∧
    (s.cfg.maxSteps ≠ some s.stepCount.toNat → s.cause ≠ .stepBudgetExhausted →
      ∀ t, step s = .next t → t.cause ≠ .stepBudgetExhausted)

/-- R100: "While STATE is IDLE, HALTED or FAULTED the machine has no step". That the model says so by the refusal
notRunning is its own choice (log 6). -/
def Obligations.NoStepOutsideRun : Prop :=
  ∀ s : State, s.runState ≠ .running → step s = .refused (.notRunning s.runState)

/-- R203: a fault taken in a step writes STATE, CAUSE, FAULT_IP = pc and FAULT_INSN (the fetched words, or 0 for the
budget) and nothing else; a fault of START writes the same four, with FAULT_IP = FAULT_INSN = 0. -/
def Obligations.FaultsArePrecise : Prop :=
  (∀ s t : State, step s = .next t → t.runState = .faulted →
    ∃ c p, t = { s with runState := .faulted, cause := c, faultIp := s.pc, faultInsn := p } ∧
      ((c = .stepBudgetExhausted ∧ p = 0) ∨
       ((c = .invalidOperand ∨ c = .outputOverflow) ∧
        ∃ op operand, s.fetch = .ok (op, operand) ∧ p = pairOf op operand))) ∧
  (∀ s t : State, s.transact .start = (t, .accepted) → t.runState = .faulted →
    ∃ c, (c = .notLoaded ∨ c = .malformedProgram) ∧
      t = { s with runState := .faulted, cause := c, faultIp := 0, faultInsn := 0 })

/-- R208: the order of the tests where two conditions hold at once, in a step and at START. -/
def Obligations.PriorityOfConditions : Prop :=
  (∀ s : State, s.runState = .running → s.len ≤ s.pc + 1 → step s = .next s.halt) ∧
  (∀ s : State, s.runState = .running → s.pc + 1 < s.len → s.budgetSpent = true →
    ∃ t, step s = .next t ∧ t.cause = .stepBudgetExhausted) ∧
  (∀ s : State, s.runState = .running → s.pc + 1 < s.len → s.budgetSpent = false → s.outFull = true →
    s.fetch = .ok (5, 7) → ∃ t, step s = .next t ∧ t.cause = .invalidOperand) ∧
  (∀ s : State, s.runState = .running → s.pc + 1 < s.len → s.budgetSpent = false → s.outFull = true →
    ∀ w, w ≠ 7 → s.fetch = .ok (5, w) → ∃ t, step s = .next t ∧ t.cause = .outputOverflow) ∧
  (∀ s : State, s.runState ≠ .running → s.allLoaded = false → (s.transact .start).1.cause = .notLoaded) ∧
  (∀ s : State, s.runState ≠ .running → s.allLoaded = true → lengthWellFormed s.len = false →
    (s.transact .start).1.cause = .malformedProgram)

/-- R38, R105: a step that completes an instruction (the run goes on) adds 1 to STEP_COUNT below 2^64 − 1; a halt or a
fault leaves it; a START that begins a run, and RESET, make it 0. At 2^64 − 1 nothing is claimed (log 4). -/
def Obligations.StepCountCountsInstructions : Prop :=
  (∀ s t : State, step s = .next t →
    (t.runState = .running → s.stepCount.toNat < 2 ^ 64 - 1 → t.stepCount.toNat = s.stepCount.toNat + 1) ∧
    (t.runState ≠ .running → t.stepCount = s.stepCount)) ∧
  (∀ s t : State, s.transact .start = (t, .accepted) → t.runState = .running → t.stepCount = 0) ∧
  (∀ s : State, (s.transact .reset).1.stepCount = 0)

/-- R25: pc changes only at START (to 0), by 2 for a completed instruction other than a taken jump, and to the literal for
a taken jnz; a halt or a fault leaves it; RESET makes it 0 (R42). -/
def Obligations.PcChangesOnlyAsStated : Prop :=
  (∀ s t : State, step s = .next t →
    (t.runState ≠ .running → t.pc = s.pc) ∧
    (t.runState = .running → ∃ op operand, s.fetch = .ok (op, operand) ∧
      t.pc = if op = 3 ∧ s.a ≠ 0 then operand.toNat else s.pc + 2)) ∧
  (∀ (s : State) (x : Transaction), x ≠ .reset → (s.transact x).1.pc ≠ s.pc →
    x = .start ∧ (s.transact x).1.runState = .running ∧ (s.transact x).1.pc = 0) ∧
  (∀ s : State, (s.transact .reset).1.pc = 0)

/-- R30: during a run OUT only grows, by one value at most, and only by an out; OUT_DATA is the value appended last. -/
def Obligations.OutputOnlyGrowsByOut : Prop :=
  ∀ s t : State, step s = .next t →
    t.out = s.out ∨
    ∃ d operand, t.out = s.out ++ [d] ∧ t.outData = some d ∧ t.outCount = s.outCount + 1 ∧ s.fetch = .ok (5, operand)

/-- R51: no step writes the program store: every word, LEN, the loaded flags and the parameters read as before, and
while RUNNING no transaction but RESET changes them either. -/
def Obligations.ProgramIsReadOnlyDuringRun : Prop :=
  (∀ s t : State, step s = .next t →
    (∀ a, Memory.read t.prog a = Memory.read s.prog a) ∧ t.len = s.len ∧ t.pLd = s.pLd ∧ t.aLd = s.aLd ∧
    t.bLd = s.bLd ∧ t.cLd = s.cLd ∧ t.cfg = s.cfg) ∧
  (∀ (s : State) (x : Transaction), s.runState = .running → x ≠ .reset →
    (∀ a, Memory.read (s.transact x).1.prog a = Memory.read s.prog a) ∧ (s.transact x).1.len = s.len)

/-- R21, C2: no register grows past the widest of the inputs: if A, B and C fit in m bits, m at least 3, they fit in m
bits after a step. -/
def Obligations.RegistersNeverOutgrowInputs : Prop :=
  ∀ (s t : State) (m : Nat), 3 ≤ m → (∀ r, (s.getReg r).toNat < 2 ^ m) → step s = .next t →
    ∀ r, (t.getReg r).toNat < 2 ^ m

/-- R161: a taken jump to a target t with `t + 1 ≥ LEN` is taken normally and the next step halts there. -/
def Obligations.JumpPastEndHaltsNext : Prop :=
  ∀ (s : State) (w : Word3), s.runState = .running → s.budgetSpent = false → s.fetch = .ok (3, w) → s.a ≠ 0 →
    s.len ≤ w.toNat + 1 →
    s.steps 2 = some { s.countStep with pc := w.toNat, runState := .halted }

/-! ### Whole runs -/

/-- R40, R107: without a budget, a run of any length depends on the program, the registers, pc, OUT and the parameters
alone; the loaded flags and the control registers are visible to no instruction. -/
def Obligations.ControlRegistersInvisible : Prop :=
  ∀ (k : Nat) (s t : State), s.cfg.maxSteps = none → s.visible = t.visible →
    (s.steps k).map State.visible = (t.steps k).map State.visible

/-- R21: with no budget and unbounded output, the 64-bit machine computes exactly what the source's machine with
unbounded registers computes, step for step, from every state that keeps the invariant. -/
def Obligations.UnboundedRegistersAgree : Prop :=
  ∀ (k : Nat) (s : State), s.Inv → s.cfg.maxSteps = none → s.cfg.outDepth = none →
    Unbounded.run s.words k s.unbounded = (s.steps k).map State.unbounded

/-- R204, R250: on a budget of n below 2^64 every run ends, within one step more than the instructions left. -/
def Obligations.BudgetEndsEveryRun : Prop :=
  ∀ (s : State) (n : Nat), s.Inv → s.runState = .running → s.cfg.maxSteps = some n → n < 2 ^ 64 →
    ∃ k t, k ≤ n - s.stepCount.toNat + 1 ∧ s.steps k = some t ∧ t.runState ≠ .running ∧ t.stepCount.toNat ≤ n

/-! ### The invariant -/

/-- The invariant holds after power-on, for every configuration that meets R8's constraints, State.reset's among them. -/
def Obligations.InvariantAtPowerOn : Prop :=
  (∀ cfg : Config, cfg.wellFormed = true → (State.resetWith cfg).Inv) ∧ State.reset.Inv

/-- Every step keeps the invariant (R27, R31, R32, R35 to R37, R202, R204, R206, R207, R211). -/
def Obligations.StepKeepsInvariant : Prop :=
  ∀ s t : State, s.Inv → step s = .next t → t.Inv

/-- Every transaction of the host keeps the invariant. -/
def Obligations.TransactionKeepsInvariant : Prop :=
  ∀ (s : State) (x : Transaction), s.Inv → (s.transact x).1.Inv

/-- The invariant holds of every state a block can be in, however steps and transactions interleave; and such a state,
when RUNNING, always has a next state. -/
def Obligations.ReachableStatesKeepInvariant : Prop :=
  ∀ s : State, s.Reachable → s.Inv ∧ (s.runState = .running → ∃ t, step s = .next t)

/-- R50, R103: under the invariant the fetch of a RUNNING machine never finds a word without a value, so its step always
answers a next state. -/
def Obligations.RunningStepCompletes : Prop :=
  ∀ s : State, s.Inv → s.runState = .running → ∃ t, step s = .next t

/-- R50: under the invariant the store is in canonical form and holds a word at exactly the indexes below LEN. -/
def Obligations.ProgramStoreHoldsTheProgram : Prop :=
  ∀ s : State, s.Inv → Memory.wf s.prog = true ∧ ∀ i, (Memory.read s.prog i).isSome = true ↔ i < s.len

/-- R27, R33: in every reachable state every host register holds a value within the width R33 gives it. -/
def Obligations.HostRegistersFitTheirWidths : Prop :=
  ∀ (s : State) (r : BlockReg) (v w : Nat), s.Reachable → s.readReg r = some v → r.width s.cfg = some w → v < 2 ^ w

/-! ### Encoding -/

/-- R77, R78: decoding the encoding of any instruction, with any words after it, gives the instruction and those words,
so no two instructions share an encoding. -/
def Obligations.DecodeEncodeAgree : Prop :=
  (∀ (i : Instr) (rest : List Word3), decode (encode i ++ rest) = .ok (i, rest)) ∧
  (∀ i j : Instr, encode i = encode j → i = j) ∧
  (∀ i j : Instr, i.pairView = j.pairView → i = j)

/-- R78: each of the 64 pairs selects exactly one instruction, with the operand as given. -/
def Obligations.DecodingIsTotal : Prop :=
  ∀ op operand : Word3, encode (decodePair op operand) = [op, operand] ∧
    decode [op, operand] = .ok (decodePair op operand, [])

/-- R77: one pair of each opcode, its words written out from the opcode map, decodes to its instruction. -/
def Obligations.WrittenWordsDecode : Prop :=
  decode [0b000#3, 0b101#3] = .ok (.adv (.reg .B), []) ∧
  decode [0b001#3, 0b111#3] = .ok (.bxl 7, []) ∧
  decode [0b010#3, 0b100#3] = .ok (.bst (.reg .A), []) ∧
  decode [0b011#3, 0b011#3] = .ok (.jnz 3, []) ∧
  decode [0b100#3, 0b110#3] = .ok (.bxc 6, []) ∧
  decode [0b101#3, 0b010#3] = .ok (.out (.lit 2), []) ∧
  decode [0b110#3, 0b110#3] = .ok (.bdv (.reg .C), []) ∧
  decode [0b111#3, 0b111#3] = .ok (.cdv .reserved, []) ∧
  decode [0b111#3] = .error .noOperand

/-- R72, R77: a pair view read as the opcode table numbers its bits decodes to its instruction, whether it is given as 6
or as 8 bits, and a number of 64 or more is refused (the model's choice, log 8). -/
def Obligations.PairViewsDecode : Prop :=
  (∀ i : Instr, i.pairView.toNat = i.opcode.toNat * 8 + i.operand.toNat ∧
    decodeTableWord 6 i.pairView.toNat = some i ∧ decodeTableWord 8 i.pairView.toNat = some i) ∧
  (∀ w, 64 ≤ w → w < 256 → decodeTableWord 8 w = none)

/-! ### The host -/

/-- R42: what RESET leaves, from every state, RUNNING included (R240). -/
def Obligations.ResetClearsEverything : Prop :=
  ∀ s t : State, t = (s.transact .reset).1 →
    (s.transact .reset).2 = .accepted ∧
    t.readReg .A = none ∧ t.readReg .B = none ∧ t.readReg .C = none ∧
    t.aLd = false ∧ t.bLd = false ∧ t.cLd = false ∧
    (∀ i, Memory.read t.prog i = none) ∧ t.len = 0 ∧ t.pLd = false ∧ t.pc = 0 ∧
    t.out = [] ∧ t.outCount = 0 ∧ t.outData = none ∧
    t.runState = .idle ∧ t.cause = .noCause ∧ t.faultIp = 0 ∧ t.faultInsn = 0 ∧ t.stepCount = 0

/-- R243: WRITE_REG sets the register and its loaded flag and nothing else; it is refused while RUNNING. -/
def Obligations.WriteRegLoadsRegister : Prop :=
  ∀ (s : State) (v : Word),
    (s.runState ≠ .running →
      s.transact (.writeReg .A v) = ({ s with a := v, aLd := true }, .accepted) ∧
      s.transact (.writeReg .B v) = ({ s with b := v, bLd := true }, .accepted) ∧
      s.transact (.writeReg .C v) = ({ s with c := v, cLd := true }, .accepted)) ∧
    (s.runState = .running → ∀ r, s.transact (.writeReg r v) = (s, .refused))

/-- R244: LOAD_PROGRAM puts the words at the indexes from 0 on, leaves no other index a value, and sets LEN and P_LD; it
is refused while RUNNING or past PROG_MAX_LEN; a bad length is accepted and then faulted by START. -/
def Obligations.LoadProgramReplacesTheStore : Prop :=
  ∀ (s : State) (ws : List Word3),
    (s.runState ≠ .running → ws.length ≤ s.cfg.progMaxLen →
      s.transact (.loadProgram ws) =
        ({ s with prog := Memory.ofWords ws, len := ws.length, pLd := true }, .accepted) ∧
      (∀ i, Memory.read (Memory.ofWords ws) i = ws[i]?) ∧
      (ws.length % 2 = 1 ∨ ws.length < 2 → s.aLd = true → s.bLd = true → s.cLd = true →
        ((s.transact (.loadProgram ws)).1.transact .start).1.cause = .malformedProgram)) ∧
    (s.runState = .running ∨ s.cfg.progMaxLen < ws.length → s.transact (.loadProgram ws) = (s, .refused))

/-- R246: START is refused while RUNNING; else it faults NOT_LOADED, or else MALFORMED_PROGRAM, or begins the run. -/
def Obligations.StartLaunchesOrFaults : Prop :=
  ∀ s : State,
    (s.runState = .running → s.transact .start = (s, .refused)) ∧
    (s.runState ≠ .running →
      (¬(s.aLd = true ∧ s.bLd = true ∧ s.cLd = true ∧ s.pLd = true) →
        s.transact .start =
          ({ s with runState := .faulted, cause := .notLoaded, faultIp := 0, faultInsn := 0 }, .accepted)) ∧
      (s.aLd = true → s.bLd = true → s.cLd = true → s.pLd = true →
        (s.len % 2 = 1 ∨ s.len < 2 →
          s.transact .start =
            ({ s with runState := .faulted, cause := .malformedProgram, faultIp := 0, faultInsn := 0 }, .accepted)) ∧
        (s.len % 2 = 0 → 2 ≤ s.len →
          s.transact .start =
            ({ s with pc := 0, out := [], stepCount := 0, cause := .noCause, faultIp := 0, faultInsn := 0,
                      runState := .running }, .accepted))))

/-- R41: while RUNNING the host may READ STATUS and RESET and is refused everything else; while not RUNNING no
transaction is refused that meets its own condition. -/
def Obligations.RunningRefusesTheHost : Prop :=
  (∀ (s : State) (x : Transaction), s.runState = .running → x ≠ .reset →
    s.transact x = if x = .read 0x04 then (s, .value s.status.toNat) else (s, .refused)) ∧
  (∀ s : State, (s.transact .reset).2 = .accepted) ∧
  (∀ (s : State) (x : Transaction), s.runState ≠ .running →
    (∀ ws, x = .loadProgram ws → ws.length ≤ s.cfg.progMaxLen) → (∀ n, x = .read n → n ≤ 0x0B) →
    (s.transact x).2 ≠ .refused)

/-- R245: a refused transaction changes nothing; nor does a READ or a READ_OUTPUT (R247). -/
def Obligations.RefusedTransactionChangesNothing : Prop :=
  ∀ (s : State) (x : Transaction),
    ((s.transact x).2 = .refused → (s.transact x).1 = s) ∧
    ((∃ n, x = .read n) ∨ x = .readOutput → (s.transact x).1 = s)

/-- R33, R247: when not RUNNING, what READ of each register number answers, "no value" for an unloaded register and for
OUT_DATA while OUT is empty, and what READ_OUTPUT answers. That a number that names no register is refused is the model's
reading (log 9). -/
def Obligations.ReadAnswersTheRegister : Prop :=
  ∀ s : State, s.runState ≠ .running →
    s.hostRead 0x00 = (if s.aLd then .value s.a.toNat else .noValue) ∧
    s.hostRead 0x01 = (if s.bLd then .value s.b.toNat else .noValue) ∧
    s.hostRead 0x02 = (if s.cLd then .value s.c.toNat else .noValue) ∧
    s.hostRead 0x03 = .value s.len ∧ s.hostRead 0x04 = .value s.status.toNat ∧
    s.hostRead 0x05 = .value s.cause.code.toNat ∧ s.hostRead 0x06 = .value s.faultIp ∧
    s.hostRead 0x07 = .value s.faultInsn.toNat ∧ s.hostRead 0x08 = .value s.stepCount.toNat ∧
    s.hostRead 0x09 = .value s.out.length ∧
    s.hostRead 0x0A = (match s.out.getLast? with | some d => .value d.toNat | none => .noValue) ∧
    s.hostRead 0x0B = .value s.pc ∧ (∀ n, 0x0B < n → s.hostRead n = .refused) ∧
    s.transact .readOutput = (s, .output s.out)

/-- R34: the places of the fields of STATUS, and the codes of STATE. -/
def Obligations.StatusHoldsStateAndFlags : Prop :=
  ∀ s : State,
    s.status.toNat = s.runState.code.toNat + 4 * s.aLd.toNat + 8 * s.bLd.toNat + 16 * s.cLd.toNat + 32 * s.pLd.toNat ∧
    (s.runState = .idle ↔ s.runState.code = 0) ∧ (s.runState = .running ↔ s.runState.code = 1) ∧
    (s.runState = .halted ↔ s.runState.code = 2) ∧ (s.runState = .faulted ↔ s.runState.code = 3)

/-- R35, R200: the codes of CAUSE; 7 is none of them. -/
def Obligations.CauseCodesAreAsListed : Prop :=
  [Cause.noCause, .invalidOperand, .unknownOpcode, .malformedProgram, .stepBudgetExhausted, .outputOverflow,
    .notLoaded].map (fun c => c.code.toNat) = [0, 1, 2, 3, 4, 5, 6] ∧
  ∀ c : Cause, c.code ≠ 7

/-- R248, R249: from power-on, the program and A, B, C loaded in any order and then START give the launch state. -/
def Obligations.BootReachesTheLaunchState : Prop :=
  ∀ (cfg : Config) (ws : List Word3) (a b c : Word) (loads : List Transaction),
    programWellFormed cfg ws = true → loads.Perm (bootLoads ws a b c) →
    (State.resetWith cfg).transactAll (loads ++ [.start]) =
      { State.resetWith cfg with
        a := a, b := b, c := c, aLd := true, bLd := true, cLd := true,
        prog := Memory.ofWords ws, len := ws.length, pLd := true, runState := .running }

/-- R109: a run that ends normally leaves the registers and OUT it had as its result; one that faults leaves its fault and
neither registers nor OUT; one that goes on has no end yet. -/
def Obligations.RunEndIsResultOrFault : Prop :=
  ∀ s t : State, step s = .next t →
    (t.runState = .halted → t.runEnd = some (.result s.a s.b s.c s.out)) ∧
    (t.runState = .faulted → ∃ c p, t.runEnd = some (.failed c s.pc p) ∧ c = t.cause ∧ p = t.faultInsn) ∧
    (t.runState = .running → t.runEnd = none) ∧ t.runState ≠ .idle

/-- R210, R211: no step leaves FAULTED, and of the host's transactions only RESET and START do or change CAUSE there. -/
def Obligations.OnlyTheHostLeavesFaulted : Prop :=
  ∀ s : State, s.runState = .faulted →
    (∀ t, step s ≠ .next t) ∧
    (∀ x, x ≠ .reset → x ≠ .start →
      (s.transact x).1.runState = .faulted ∧ (s.transact x).1.cause = s.cause)

/-! ### Assembly -/

/-- R83: assembling the line of an instruction, with any comment after it, gives the instruction, with a warning exactly
for combo operand 7. That a space may stand before the comment is the model's choice (log 15, DESIGN CHOICE). -/
def Obligations.AssemblerReadsItsOwnLines : Prop :=
  ∀ (i : Instr) (comment : List Char),
    assembleLine (disassemble i) = .ok (some ⟨i, !i.legal⟩) ∧
    assembleLine (disassemble i ++ ' ' :: ';' :: comment) = .ok (some ⟨i, !i.legal⟩)

/-- R83: an operand of one character that is a digit 8 or 9, or no digit, is rejected; operands of more characters are
left to no clause here. The last clause is the model's choice and not R83's (log 15, DESIGN CHOICE): a mnemonic alone is
rejected, for bxc too. R83 says that the operand digit is always present, not what becomes of a line that lacks it. -/
def Obligations.AssemblerRejectsBadOperands : Prop :=
  ∀ (i : Instr) (d : Char), d ≠ ' ' → d ≠ ';' → (∀ w : Word3, d ≠ digitOf w) →
    assembleLine (mnemonic i ++ [' ', d]) = .error .badOperand ∧
    assembleLine (mnemonic i) = .error .badOperand
end

