-- ==== Sys2Proof/Laws/HostInterface.lean ====
section
/-! SUPPORT. What each transaction of Machine/HostInterface.lean leaves in each field, and the cases of START. -/

namespace Sys2Proof.Machine

/-! ### RESET -/

@[simp] theorem State.hostReset_a (s : State) : (s.hostReset).a = 0 := rfl
@[simp] theorem State.hostReset_b (s : State) : (s.hostReset).b = 0 := rfl
@[simp] theorem State.hostReset_c (s : State) : (s.hostReset).c = 0 := rfl
@[simp] theorem State.hostReset_aLd (s : State) : (s.hostReset).aLd = false := rfl
@[simp] theorem State.hostReset_bLd (s : State) : (s.hostReset).bLd = false := rfl
@[simp] theorem State.hostReset_cLd (s : State) : (s.hostReset).cLd = false := rfl
@[simp] theorem State.hostReset_prog (s : State) : (s.hostReset).prog = [] := rfl
@[simp] theorem State.hostReset_len (s : State) : (s.hostReset).len = 0 := rfl
@[simp] theorem State.hostReset_pLd (s : State) : (s.hostReset).pLd = false := rfl
@[simp] theorem State.hostReset_pc (s : State) : (s.hostReset).pc = 0 := rfl
@[simp] theorem State.hostReset_out (s : State) : (s.hostReset).out = [] := rfl
@[simp] theorem State.hostReset_runState (s : State) : (s.hostReset).runState = .idle := rfl
@[simp] theorem State.hostReset_cause (s : State) : (s.hostReset).cause = .noCause := rfl
@[simp] theorem State.hostReset_faultIp (s : State) : (s.hostReset).faultIp = 0 := rfl
@[simp] theorem State.hostReset_faultInsn (s : State) : (s.hostReset).faultInsn = 0 := rfl
@[simp] theorem State.hostReset_stepCount (s : State) : (s.hostReset).stepCount = 0 := rfl
@[simp] theorem State.hostReset_cfg (s : State) : (s.hostReset).cfg = s.cfg := rfl
@[simp] theorem State.hostReset_freeIdx (s : State) : (s.hostReset).freeIdx = s.freeIdx := rfl

/-! ### LOAD_PROGRAM -/

@[simp] theorem State.hostLoadProgram_a (s : State) (ws : List Word3) : (s.hostLoadProgram ws).a = s.a := rfl
@[simp] theorem State.hostLoadProgram_b (s : State) (ws : List Word3) : (s.hostLoadProgram ws).b = s.b := rfl
@[simp] theorem State.hostLoadProgram_c (s : State) (ws : List Word3) : (s.hostLoadProgram ws).c = s.c := rfl
@[simp] theorem State.hostLoadProgram_aLd (s : State) (ws : List Word3) : (s.hostLoadProgram ws).aLd = s.aLd := rfl
@[simp] theorem State.hostLoadProgram_bLd (s : State) (ws : List Word3) : (s.hostLoadProgram ws).bLd = s.bLd := rfl
@[simp] theorem State.hostLoadProgram_cLd (s : State) (ws : List Word3) : (s.hostLoadProgram ws).cLd = s.cLd := rfl
@[simp] theorem State.hostLoadProgram_prog (s : State) (ws : List Word3) : (s.hostLoadProgram ws).prog = Memory.ofWords ws := rfl
@[simp] theorem State.hostLoadProgram_len (s : State) (ws : List Word3) : (s.hostLoadProgram ws).len = ws.length := rfl
@[simp] theorem State.hostLoadProgram_pLd (s : State) (ws : List Word3) : (s.hostLoadProgram ws).pLd = true := rfl
@[simp] theorem State.hostLoadProgram_pc (s : State) (ws : List Word3) : (s.hostLoadProgram ws).pc = s.pc := rfl
@[simp] theorem State.hostLoadProgram_out (s : State) (ws : List Word3) : (s.hostLoadProgram ws).out = s.out := rfl
@[simp] theorem State.hostLoadProgram_runState (s : State) (ws : List Word3) : (s.hostLoadProgram ws).runState = s.runState := rfl
@[simp] theorem State.hostLoadProgram_cause (s : State) (ws : List Word3) : (s.hostLoadProgram ws).cause = s.cause := rfl
@[simp] theorem State.hostLoadProgram_faultIp (s : State) (ws : List Word3) : (s.hostLoadProgram ws).faultIp = s.faultIp := rfl
@[simp] theorem State.hostLoadProgram_faultInsn (s : State) (ws : List Word3) : (s.hostLoadProgram ws).faultInsn = s.faultInsn := rfl
@[simp] theorem State.hostLoadProgram_stepCount (s : State) (ws : List Word3) : (s.hostLoadProgram ws).stepCount = s.stepCount := rfl
@[simp] theorem State.hostLoadProgram_cfg (s : State) (ws : List Word3) : (s.hostLoadProgram ws).cfg = s.cfg := rfl
@[simp] theorem State.hostLoadProgram_freeIdx (s : State) (ws : List Word3) : (s.hostLoadProgram ws).freeIdx = s.freeIdx := rfl

/-! ### The launch of a run -/

@[simp] theorem State.launch_a (s : State) : (s.launch).a = s.a := rfl
@[simp] theorem State.launch_b (s : State) : (s.launch).b = s.b := rfl
@[simp] theorem State.launch_c (s : State) : (s.launch).c = s.c := rfl
@[simp] theorem State.launch_aLd (s : State) : (s.launch).aLd = s.aLd := rfl
@[simp] theorem State.launch_bLd (s : State) : (s.launch).bLd = s.bLd := rfl
@[simp] theorem State.launch_cLd (s : State) : (s.launch).cLd = s.cLd := rfl
@[simp] theorem State.launch_prog (s : State) : (s.launch).prog = s.prog := rfl
@[simp] theorem State.launch_len (s : State) : (s.launch).len = s.len := rfl
@[simp] theorem State.launch_pLd (s : State) : (s.launch).pLd = s.pLd := rfl
@[simp] theorem State.launch_pc (s : State) : (s.launch).pc = 0 := rfl
@[simp] theorem State.launch_out (s : State) : (s.launch).out = [] := rfl
@[simp] theorem State.launch_runState (s : State) : (s.launch).runState = .running := rfl
@[simp] theorem State.launch_cause (s : State) : (s.launch).cause = .noCause := rfl
@[simp] theorem State.launch_faultIp (s : State) : (s.launch).faultIp = 0 := rfl
@[simp] theorem State.launch_faultInsn (s : State) : (s.launch).faultInsn = 0 := rfl
@[simp] theorem State.launch_stepCount (s : State) : (s.launch).stepCount = 0 := rfl
@[simp] theorem State.launch_cfg (s : State) : (s.launch).cfg = s.cfg := rfl
@[simp] theorem State.launch_freeIdx (s : State) : (s.launch).freeIdx = s.freeIdx := rfl

/-- START that is not refused (R246): one of the two faults, or a launch with everything loaded and a good length. -/
theorem State.hostStart_cases (s : State) :
    (s.allLoaded = false ∧ s.hostStart = s.takeFault ⟨.notLoaded, .atStart⟩) ∨
    (s.allLoaded = true ∧ lengthWellFormed s.len = false ∧ s.hostStart = s.takeFault ⟨.malformedProgram, .atStart⟩) ∨
    (s.allLoaded = true ∧ lengthWellFormed s.len = true ∧ s.hostStart = s.launch) := by
  unfold State.hostStart
  cases s.allLoaded <;> cases lengthWellFormed s.len <;> simp

/-- A transaction is refused with no effect, is a READ or READ_OUTPUT, or is one of the four that write (R242). -/
theorem State.transact_cases (s : State) (t : Transaction) :
    (s.transact t).1 = s ∨
    (t = .reset ∧ s.transact t = (s.hostReset, .accepted)) ∨
    (s.runState ≠ .running ∧ (s.transact t).2 = .accepted ∧
      ((∃ r v, t = .writeReg r v ∧ (s.transact t).1 = s.hostWriteReg r v) ∨
       (∃ ws, t = .loadProgram ws ∧ ws.length ≤ s.cfg.progMaxLen ∧ (s.transact t).1 = s.hostLoadProgram ws) ∨
       (t = .start ∧ (s.transact t).1 = s.hostStart))) := by
  cases t with
  | reset => exact .inr (.inl ⟨rfl, rfl⟩)
  | writeReg r v =>
    by_cases h : s.runState = .running
    · exact .inl (by simp [State.transact, h])
    · exact .inr (.inr ⟨h, by simp [State.transact, h], .inl ⟨r, v, rfl, by simp [State.transact, h]⟩⟩)
  | loadProgram ws =>
    by_cases h : s.runState ≠ .running ∧ ws.length ≤ s.cfg.progMaxLen
    · exact .inr (.inr ⟨h.1, by simp [State.transact, h], .inr (.inl ⟨ws, rfl, h.2, by simp [State.transact, h]⟩)⟩)
    · exact .inl (by simp only [State.transact, if_neg h])
  | start =>
    by_cases h : s.runState = .running
    · exact .inl (by simp [State.transact, h])
    · exact .inr (.inr ⟨h, by simp [State.transact, h], .inr (.inr ⟨rfl, by simp [State.transact, h]⟩)⟩)
  | read n => exact .inl rfl
  | readOutput => exact .inl (by simp only [State.transact]; split <;> rfl)

end Sys2Proof.Machine
end

