-- ==== Sys2Proof/Laws/Memory.lean ====
section
/-! SUPPORT. The laws of the program store: what a read gives after a write or a load, and that both keep the canonical
form. -/

namespace Sys2Proof.Machine

@[simp] theorem Memory.read_nil (i : Nat) : Memory.read [] i = none := rfl

/-- A read after a write gives the word written at its index and what stood there at every other. -/
theorem Memory.read_write (m : Memory) (i j : Nat) (w : Word3) :
    Memory.read (Memory.write m i w) j = if j = i then some w else Memory.read m j := by
  induction m with
  | nil => rfl
  | cons p m ih =>
    obtain ⟨k, v⟩ := p
    simp only [Memory.write]
    split
    · rfl
    · split
      · rename_i h; subst h; simp only [Memory.read]; split <;> rfl
      · simp only [Memory.read, ih]
        split
        · split
          · omega
          · rfl
        · rfl

/-- The canonical form, unfolded once: the tail has it, and every index of the tail is above the head's. -/
theorem Memory.wf_cons (i : Nat) (w : Word3) (m : Memory) :
    Memory.wf ((i, w) :: m) = true ↔ Memory.wf m = true ∧ ∀ p ∈ m.head?, i < p.1 := by
  cases m with
  | nil => simp [Memory.wf]
  | cons p m => obtain ⟨j, v⟩ := p; simp [Memory.wf, and_comm]

theorem Memory.head_write (m : Memory) (i : Nat) (w : Word3) (k : Nat) (hk : k < i) (hm : ∀ p ∈ m.head?, k < p.1) :
    ∀ p ∈ (Memory.write m i w).head?, k < p.1 := by
  cases m with
  | nil => simpa [Memory.write] using hk
  | cons q m =>
    obtain ⟨j, v⟩ := q
    have hj : k < j := by simpa using hm
    simp only [Memory.write]
    split
    · simpa using hk
    · split <;> simpa using by assumption

/-- A write keeps the canonical form. -/
theorem Memory.wf_write (m : Memory) (i : Nat) (w : Word3) (h : Memory.wf m = true) :
    Memory.wf (Memory.write m i w) = true := by
  induction m with
  | nil => rfl
  | cons p m ih =>
    obtain ⟨j, v⟩ := p
    have hm := (Memory.wf_cons j v m).mp h
    simp only [Memory.write]
    split
    · exact (Memory.wf_cons i w _).mpr ⟨h, by simpa⟩
    · split
      · rename_i h'; subst h'; exact (Memory.wf_cons i w m).mpr hm
      · exact (Memory.wf_cons j v _).mpr ⟨ih hm.1, Memory.head_write m i w j (by omega) hm.2⟩

/-- What a load of consecutive words gives at each index. -/
theorem Memory.read_ofWordsFrom (base : Nat) (ws : List Word3) (i : Nat) :
    Memory.read (Memory.ofWordsFrom base ws) i = if base ≤ i then ws[i - base]? else none := by
  induction ws generalizing base with
  | nil => simp [Memory.ofWordsFrom]
  | cons w ws ih =>
    simp only [Memory.ofWordsFrom, Memory.read, ih]
    by_cases h : i = base
    · simp [h]
    · rw [if_neg h]
      by_cases h1 : base ≤ i
      · rw [if_pos h1, if_pos (by omega), show i - base = (i - (base + 1)) + 1 by omega, List.getElem?_cons_succ]
      · rw [if_neg h1, if_neg (by omega)]

/-- The indexes a load of consecutive words lists. -/
theorem Memory.indexes_ofWordsFrom (base : Nat) (ws : List Word3) :
    (Memory.ofWordsFrom base ws).map (·.1) = List.range' base ws.length := by
  induction ws generalizing base with
  | nil => rfl
  | cons w ws ih => simp [Memory.ofWordsFrom, ih, List.range'_succ]

/-- A load makes the canonical form. -/
theorem Memory.wf_ofWords (ws : List Word3) : Memory.wf (Memory.ofWords ws) = true := by
  unfold Memory.ofWords
  generalize 0 = base
  induction ws generalizing base with
  | nil => rfl
  | cons w ws ih =>
    refine (Memory.wf_cons _ _ _).mpr ⟨ih (base + 1), ?_⟩
    cases ws <;> simp [Memory.ofWordsFrom]

/-- The store after reset has the canonical form. -/
theorem reset_prog_wf : Memory.wf State.reset.prog = true := rfl

/-- A read of the store below LEN is the listed word, or the fault noWord (R50). -/
theorem State.memRead_ok (s : State) (i : Nat) (w : Word3) :
    s.memRead i = .ok w ↔ i < s.len ∧ Memory.read s.prog i = some w := by
  unfold State.memRead
  split
  · cases h : Memory.read s.prog i <;> simp_all
  · simp; omega

/-- A fetch that answers read both words of the instruction at pc (R103). -/
theorem State.fetch_ok (s : State) (op operand : Word3) :
    s.fetch = .ok (op, operand) ↔ s.memRead s.pc = .ok op ∧ s.memRead (s.pc + 1) = .ok operand := by
  unfold State.fetch
  cases s.memRead s.pc <;> cases s.memRead (s.pc + 1) <;> simp

end Sys2Proof.Machine
end

