-- ==== Sys2Proof/Laws/State.lean ====
section
/-! SUPPORT. The small lemmas of State: what each update of Machine/Ops.lean and Machine/Flags.lean leaves in each
field. -/

namespace Sys2Proof.Machine

/-! ### Writing a register -/

@[simp] theorem State.setReg_aLd (s : State) (r : Reg) (v : Word) : (s.setReg r v).aLd = s.aLd := by
  cases r <;> rfl
@[simp] theorem State.setReg_bLd (s : State) (r : Reg) (v : Word) : (s.setReg r v).bLd = s.bLd := by
  cases r <;> rfl
@[simp] theorem State.setReg_cLd (s : State) (r : Reg) (v : Word) : (s.setReg r v).cLd = s.cLd := by
  cases r <;> rfl
@[simp] theorem State.setReg_prog (s : State) (r : Reg) (v : Word) : (s.setReg r v).prog = s.prog := by
  cases r <;> rfl
@[simp] theorem State.setReg_len (s : State) (r : Reg) (v : Word) : (s.setReg r v).len = s.len := by
  cases r <;> rfl
@[simp] theorem State.setReg_pLd (s : State) (r : Reg) (v : Word) : (s.setReg r v).pLd = s.pLd := by
  cases r <;> rfl
@[simp] theorem State.setReg_pc (s : State) (r : Reg) (v : Word) : (s.setReg r v).pc = s.pc := by
  cases r <;> rfl
@[simp] theorem State.setReg_out (s : State) (r : Reg) (v : Word) : (s.setReg r v).out = s.out := by
  cases r <;> rfl
@[simp] theorem State.setReg_runState (s : State) (r : Reg) (v : Word) : (s.setReg r v).runState = s.runState := by
  cases r <;> rfl
@[simp] theorem State.setReg_cause (s : State) (r : Reg) (v : Word) : (s.setReg r v).cause = s.cause := by
  cases r <;> rfl
@[simp] theorem State.setReg_faultIp (s : State) (r : Reg) (v : Word) : (s.setReg r v).faultIp = s.faultIp := by
  cases r <;> rfl
@[simp] theorem State.setReg_faultInsn (s : State) (r : Reg) (v : Word) : (s.setReg r v).faultInsn = s.faultInsn := by
  cases r <;> rfl
@[simp] theorem State.setReg_stepCount (s : State) (r : Reg) (v : Word) : (s.setReg r v).stepCount = s.stepCount := by
  cases r <;> rfl
@[simp] theorem State.setReg_cfg (s : State) (r : Reg) (v : Word) : (s.setReg r v).cfg = s.cfg := by
  cases r <;> rfl
@[simp] theorem State.setReg_freeIdx (s : State) (r : Reg) (v : Word) : (s.setReg r v).freeIdx = s.freeIdx := by
  cases r <;> rfl

@[simp] theorem State.setReg_A_a (s : State) (v : Word) : (s.setReg .A v).a = v := rfl
@[simp] theorem State.setReg_A_b (s : State) (v : Word) : (s.setReg .A v).b = s.b := rfl
@[simp] theorem State.setReg_A_c (s : State) (v : Word) : (s.setReg .A v).c = s.c := rfl
@[simp] theorem State.setReg_B_a (s : State) (v : Word) : (s.setReg .B v).a = s.a := rfl
@[simp] theorem State.setReg_B_b (s : State) (v : Word) : (s.setReg .B v).b = v := rfl
@[simp] theorem State.setReg_B_c (s : State) (v : Word) : (s.setReg .B v).c = s.c := rfl
@[simp] theorem State.setReg_C_a (s : State) (v : Word) : (s.setReg .C v).a = s.a := rfl
@[simp] theorem State.setReg_C_b (s : State) (v : Word) : (s.setReg .C v).b = s.b := rfl
@[simp] theorem State.setReg_C_c (s : State) (v : Word) : (s.setReg .C v).c = v := rfl

@[simp] theorem State.getReg_A (s : State) : s.getReg .A = s.a := rfl
@[simp] theorem State.getReg_B (s : State) : s.getReg .B = s.b := rfl
@[simp] theorem State.getReg_C (s : State) : s.getReg .C = s.c := rfl

/-- No register aliases another (R20): a write is read back, and leaves the other registers alone. -/
theorem State.getReg_setReg (s : State) (r q : Reg) (v : Word) :
    (s.setReg r v).getReg q = if q = r then v else s.getReg q := by
  cases r <;> cases q <;> rfl

/-! ### Setting a loaded flag -/

@[simp] theorem State.setLoaded_a (s : State) (r : Reg) : (s.setLoaded r).a = s.a := by
  cases r <;> rfl
@[simp] theorem State.setLoaded_b (s : State) (r : Reg) : (s.setLoaded r).b = s.b := by
  cases r <;> rfl
@[simp] theorem State.setLoaded_c (s : State) (r : Reg) : (s.setLoaded r).c = s.c := by
  cases r <;> rfl
@[simp] theorem State.setLoaded_prog (s : State) (r : Reg) : (s.setLoaded r).prog = s.prog := by
  cases r <;> rfl
@[simp] theorem State.setLoaded_len (s : State) (r : Reg) : (s.setLoaded r).len = s.len := by
  cases r <;> rfl
@[simp] theorem State.setLoaded_pLd (s : State) (r : Reg) : (s.setLoaded r).pLd = s.pLd := by
  cases r <;> rfl
@[simp] theorem State.setLoaded_pc (s : State) (r : Reg) : (s.setLoaded r).pc = s.pc := by
  cases r <;> rfl
@[simp] theorem State.setLoaded_out (s : State) (r : Reg) : (s.setLoaded r).out = s.out := by
  cases r <;> rfl
@[simp] theorem State.setLoaded_runState (s : State) (r : Reg) : (s.setLoaded r).runState = s.runState := by
  cases r <;> rfl
@[simp] theorem State.setLoaded_cause (s : State) (r : Reg) : (s.setLoaded r).cause = s.cause := by
  cases r <;> rfl
@[simp] theorem State.setLoaded_faultIp (s : State) (r : Reg) : (s.setLoaded r).faultIp = s.faultIp := by
  cases r <;> rfl
@[simp] theorem State.setLoaded_faultInsn (s : State) (r : Reg) : (s.setLoaded r).faultInsn = s.faultInsn := by
  cases r <;> rfl
@[simp] theorem State.setLoaded_stepCount (s : State) (r : Reg) : (s.setLoaded r).stepCount = s.stepCount := by
  cases r <;> rfl
@[simp] theorem State.setLoaded_cfg (s : State) (r : Reg) : (s.setLoaded r).cfg = s.cfg := by
  cases r <;> rfl
@[simp] theorem State.setLoaded_freeIdx (s : State) (r : Reg) : (s.setLoaded r).freeIdx = s.freeIdx := by
  cases r <;> rfl

theorem State.loaded_setLoaded (s : State) (r q : Reg) :
    (s.setLoaded r).loaded q = (decide (q = r) || s.loaded q) := by
  cases r <;> cases q <;> rfl

/-! ### Appending an output value -/

@[simp] theorem State.emit_a (s : State) (d : Word3) : (s.emit d).a = s.a := rfl
@[simp] theorem State.emit_b (s : State) (d : Word3) : (s.emit d).b = s.b := rfl
@[simp] theorem State.emit_c (s : State) (d : Word3) : (s.emit d).c = s.c := rfl
@[simp] theorem State.emit_aLd (s : State) (d : Word3) : (s.emit d).aLd = s.aLd := rfl
@[simp] theorem State.emit_bLd (s : State) (d : Word3) : (s.emit d).bLd = s.bLd := rfl
@[simp] theorem State.emit_cLd (s : State) (d : Word3) : (s.emit d).cLd = s.cLd := rfl
@[simp] theorem State.emit_prog (s : State) (d : Word3) : (s.emit d).prog = s.prog := rfl
@[simp] theorem State.emit_len (s : State) (d : Word3) : (s.emit d).len = s.len := rfl
@[simp] theorem State.emit_pLd (s : State) (d : Word3) : (s.emit d).pLd = s.pLd := rfl
@[simp] theorem State.emit_pc (s : State) (d : Word3) : (s.emit d).pc = s.pc := rfl
@[simp] theorem State.emit_out (s : State) (d : Word3) : (s.emit d).out = s.out ++ [d] := rfl
@[simp] theorem State.emit_runState (s : State) (d : Word3) : (s.emit d).runState = s.runState := rfl
@[simp] theorem State.emit_cause (s : State) (d : Word3) : (s.emit d).cause = s.cause := rfl
@[simp] theorem State.emit_faultIp (s : State) (d : Word3) : (s.emit d).faultIp = s.faultIp := rfl
@[simp] theorem State.emit_faultInsn (s : State) (d : Word3) : (s.emit d).faultInsn = s.faultInsn := rfl
@[simp] theorem State.emit_stepCount (s : State) (d : Word3) : (s.emit d).stepCount = s.stepCount := rfl
@[simp] theorem State.emit_cfg (s : State) (d : Word3) : (s.emit d).cfg = s.cfg := rfl
@[simp] theorem State.emit_freeIdx (s : State) (d : Word3) : (s.emit d).freeIdx = s.freeIdx := rfl

@[simp] theorem State.outData_emit (s : State) (d : Word3) : (s.emit d).outData = some d := by
  simp [State.outData]

/-! ### Halting -/

@[simp] theorem State.halt_a (s : State) : (s.halt).a = s.a := rfl
@[simp] theorem State.halt_b (s : State) : (s.halt).b = s.b := rfl
@[simp] theorem State.halt_c (s : State) : (s.halt).c = s.c := rfl
@[simp] theorem State.halt_aLd (s : State) : (s.halt).aLd = s.aLd := rfl
@[simp] theorem State.halt_bLd (s : State) : (s.halt).bLd = s.bLd := rfl
@[simp] theorem State.halt_cLd (s : State) : (s.halt).cLd = s.cLd := rfl
@[simp] theorem State.halt_prog (s : State) : (s.halt).prog = s.prog := rfl
@[simp] theorem State.halt_len (s : State) : (s.halt).len = s.len := rfl
@[simp] theorem State.halt_pLd (s : State) : (s.halt).pLd = s.pLd := rfl
@[simp] theorem State.halt_pc (s : State) : (s.halt).pc = s.pc := rfl
@[simp] theorem State.halt_out (s : State) : (s.halt).out = s.out := rfl
@[simp] theorem State.halt_runState (s : State) : (s.halt).runState = .halted := rfl
@[simp] theorem State.halt_cause (s : State) : (s.halt).cause = s.cause := rfl
@[simp] theorem State.halt_faultIp (s : State) : (s.halt).faultIp = s.faultIp := rfl
@[simp] theorem State.halt_faultInsn (s : State) : (s.halt).faultInsn = s.faultInsn := rfl
@[simp] theorem State.halt_stepCount (s : State) : (s.halt).stepCount = s.stepCount := rfl
@[simp] theorem State.halt_cfg (s : State) : (s.halt).cfg = s.cfg := rfl
@[simp] theorem State.halt_freeIdx (s : State) : (s.halt).freeIdx = s.freeIdx := rfl

/-! ### Taking a fault -/

@[simp] theorem State.takeFault_a (s : State) (f : Raised) : (s.takeFault f).a = s.a := rfl
@[simp] theorem State.takeFault_b (s : State) (f : Raised) : (s.takeFault f).b = s.b := rfl
@[simp] theorem State.takeFault_c (s : State) (f : Raised) : (s.takeFault f).c = s.c := rfl
@[simp] theorem State.takeFault_aLd (s : State) (f : Raised) : (s.takeFault f).aLd = s.aLd := rfl
@[simp] theorem State.takeFault_bLd (s : State) (f : Raised) : (s.takeFault f).bLd = s.bLd := rfl
@[simp] theorem State.takeFault_cLd (s : State) (f : Raised) : (s.takeFault f).cLd = s.cLd := rfl
@[simp] theorem State.takeFault_prog (s : State) (f : Raised) : (s.takeFault f).prog = s.prog := rfl
@[simp] theorem State.takeFault_len (s : State) (f : Raised) : (s.takeFault f).len = s.len := rfl
@[simp] theorem State.takeFault_pLd (s : State) (f : Raised) : (s.takeFault f).pLd = s.pLd := rfl
@[simp] theorem State.takeFault_pc (s : State) (f : Raised) : (s.takeFault f).pc = s.pc := rfl
@[simp] theorem State.takeFault_out (s : State) (f : Raised) : (s.takeFault f).out = s.out := rfl
@[simp] theorem State.takeFault_runState (s : State) (f : Raised) : (s.takeFault f).runState = .faulted := rfl
@[simp] theorem State.takeFault_cause (s : State) (f : Raised) : (s.takeFault f).cause = f.cause := rfl
@[simp] theorem State.takeFault_faultIp (s : State) (f : Raised) : (s.takeFault f).faultIp = f.info.ip := rfl
@[simp] theorem State.takeFault_faultInsn (s : State) (f : Raised) : (s.takeFault f).faultInsn = f.info.pair := rfl
@[simp] theorem State.takeFault_stepCount (s : State) (f : Raised) : (s.takeFault f).stepCount = s.stepCount := rfl
@[simp] theorem State.takeFault_cfg (s : State) (f : Raised) : (s.takeFault f).cfg = s.cfg := rfl
@[simp] theorem State.takeFault_freeIdx (s : State) (f : Raised) : (s.takeFault f).freeIdx = s.freeIdx := rfl

/-! ### Counting a completed instruction -/

@[simp] theorem State.countStep_a (s : State) : (s.countStep).a = s.a := rfl
@[simp] theorem State.countStep_b (s : State) : (s.countStep).b = s.b := rfl
@[simp] theorem State.countStep_c (s : State) : (s.countStep).c = s.c := rfl
@[simp] theorem State.countStep_aLd (s : State) : (s.countStep).aLd = s.aLd := rfl
@[simp] theorem State.countStep_bLd (s : State) : (s.countStep).bLd = s.bLd := rfl
@[simp] theorem State.countStep_cLd (s : State) : (s.countStep).cLd = s.cLd := rfl
@[simp] theorem State.countStep_prog (s : State) : (s.countStep).prog = s.prog := rfl
@[simp] theorem State.countStep_len (s : State) : (s.countStep).len = s.len := rfl
@[simp] theorem State.countStep_pLd (s : State) : (s.countStep).pLd = s.pLd := rfl
@[simp] theorem State.countStep_pc (s : State) : (s.countStep).pc = s.pc := rfl
@[simp] theorem State.countStep_out (s : State) : (s.countStep).out = s.out := rfl
@[simp] theorem State.countStep_runState (s : State) : (s.countStep).runState = s.runState := rfl
@[simp] theorem State.countStep_cause (s : State) : (s.countStep).cause = s.cause := rfl
@[simp] theorem State.countStep_faultIp (s : State) : (s.countStep).faultIp = s.faultIp := rfl
@[simp] theorem State.countStep_faultInsn (s : State) : (s.countStep).faultInsn = s.faultInsn := rfl
@[simp] theorem State.countStep_stepCount (s : State) : (s.countStep).stepCount = s.countNext := rfl
@[simp] theorem State.countStep_cfg (s : State) : (s.countStep).cfg = s.cfg := rfl
@[simp] theorem State.countStep_freeIdx (s : State) : (s.countStep).freeIdx = s.freeNext := rfl

/-- Below 2^64 − 1 STEP_COUNT goes up by one and no free value is used (R38). -/
theorem State.countNext_of_lt (s : State) (h : s.stepCount.toNat < 2 ^ 64 - 1) :
    s.countNext = s.stepCount + 1 ∧ s.countNext.toNat = s.stepCount.toNat + 1 ∧ s.freeNext = s.freeIdx := by
  have hf : s.countFull = false := by
    refine beq_eq_false_iff_ne.mpr fun he => ?_
    rw [he] at h
    exact absurd h (by decide)
  have hn : s.countNext = s.stepCount + 1 := by simp [State.countNext, hf]
  refine ⟨hn, ?_, by simp [State.freeNext, hf]⟩
  rw [hn, BitVec.toNat_add, show (1 : BitVec 64).toNat = 1 from rfl]
  exact Nat.mod_eq_of_lt (by omega)

/-! ### Placing an instruction for the next step -/

@[simp] theorem State.placeInstr_a (s : State) (x y : Word3) : (s.placeInstr x y).a = s.a := rfl
@[simp] theorem State.placeInstr_b (s : State) (x y : Word3) : (s.placeInstr x y).b = s.b := rfl
@[simp] theorem State.placeInstr_c (s : State) (x y : Word3) : (s.placeInstr x y).c = s.c := rfl
@[simp] theorem State.placeInstr_aLd (s : State) (x y : Word3) : (s.placeInstr x y).aLd = s.aLd := rfl
@[simp] theorem State.placeInstr_bLd (s : State) (x y : Word3) : (s.placeInstr x y).bLd = s.bLd := rfl
@[simp] theorem State.placeInstr_cLd (s : State) (x y : Word3) : (s.placeInstr x y).cLd = s.cLd := rfl
@[simp] theorem State.placeInstr_prog (s : State) (x y : Word3) : (s.placeInstr x y).prog = Memory.write (Memory.write s.prog s.pc x) (s.pc + 1) y := rfl
@[simp] theorem State.placeInstr_len (s : State) (x y : Word3) : (s.placeInstr x y).len = max s.len (s.pc + 2) := rfl
@[simp] theorem State.placeInstr_pLd (s : State) (x y : Word3) : (s.placeInstr x y).pLd = true := rfl
@[simp] theorem State.placeInstr_pc (s : State) (x y : Word3) : (s.placeInstr x y).pc = s.pc := rfl
@[simp] theorem State.placeInstr_out (s : State) (x y : Word3) : (s.placeInstr x y).out = s.out := rfl
@[simp] theorem State.placeInstr_runState (s : State) (x y : Word3) : (s.placeInstr x y).runState = .running := rfl
@[simp] theorem State.placeInstr_cause (s : State) (x y : Word3) : (s.placeInstr x y).cause = s.cause := rfl
@[simp] theorem State.placeInstr_faultIp (s : State) (x y : Word3) : (s.placeInstr x y).faultIp = s.faultIp := rfl
@[simp] theorem State.placeInstr_faultInsn (s : State) (x y : Word3) : (s.placeInstr x y).faultInsn = s.faultInsn := rfl
@[simp] theorem State.placeInstr_stepCount (s : State) (x y : Word3) : (s.placeInstr x y).stepCount = s.stepCount := rfl
@[simp] theorem State.placeInstr_cfg (s : State) (x y : Word3) : (s.placeInstr x y).cfg = s.cfg := rfl
@[simp] theorem State.placeInstr_freeIdx (s : State) (x y : Word3) : (s.placeInstr x y).freeIdx = s.freeIdx := rfl

end Sys2Proof.Machine
end

