-- ==== Sys2Proof/Laws/Ops.lean ====
section
/-! SUPPORT. One lemma for each shared operation of the step, saying once everything it can do. -/

namespace Sys2Proof.Machine

/-! ### Small lemmas of the fault records -/

@[simp] theorem FaultInfo.ip_insn (p : Nat) (x y : Word3) : (FaultInfo.insn p x y).ip = p := rfl
@[simp] theorem FaultInfo.ip_notBegun (p : Nat) : (FaultInfo.notBegun p).ip = p := rfl
@[simp] theorem FaultInfo.ip_atStart : FaultInfo.atStart.ip = 0 := rfl
@[simp] theorem FaultInfo.pair_insn (p : Nat) (x y : Word3) : (FaultInfo.insn p x y).pair = pairOf x y := rfl
@[simp] theorem FaultInfo.pair_notBegun (p : Nat) : (FaultInfo.notBegun p).pair = 0 := rfl
@[simp] theorem FaultInfo.pair_atStart : FaultInfo.atStart.pair = 0 := rfl

@[simp] theorem State.raised_cause (s : State) (c : Cause) (i : Instr) : (s.raised c i).cause = c := rfl
@[simp] theorem State.raised_info (s : State) (c : Cause) (i : Instr) :
    (s.raised c i).info = .insn s.pc i.opcode i.operand := rfl

/-! ### Commit (R105) -/

/-- The commit of one register write and an advance. -/
theorem State.commit_ofWrite (s : State) (r : Reg) (v : Word) :
    s.commit (.ofWrite r v) = { s.countStep.setReg r v with pc := s.pc + 2 } := by
  cases r <;> rfl

/-- The commit of an output value and an advance. -/
theorem State.commit_emit (s : State) (d : Word3) :
    s.commit { writes := [], emit := some d, next := .advance } =
      { s.countStep with out := s.out ++ [d], pc := s.pc + 2 } := rfl

/-- The commit of a result that only moves pc. -/
theorem State.commit_next (s : State) (n : NextPc) :
    s.commit { writes := [], emit := none, next := n } = { s.countStep with pc := s.nextPc n } := rfl

/-! ### The tests -/

/-- jnz's condition (R160). -/
theorem State.jumpCondition_iff (s : State) : s.jumpCondition = true ↔ s.a ≠ 0 := by simp [State.jumpCondition]

/-- The halt test (R101). -/
theorem State.atEnd_iff (s : State) : s.atEnd = true ↔ s.len ≤ s.pc + 1 := by simp [State.atEnd]

/-- OUT is full (R171, R205). -/
theorem State.outFull_iff (s : State) : s.outFull = true ↔ s.cfg.outDepth = some s.out.length := by
  unfold State.outFull
  cases s.cfg.outDepth with
  | none => simp
  | some d => simp only [beq_iff_eq, Option.some.injEq]; exact eq_comm

/-- The budget test (R102). -/
theorem State.budgetSpent_iff (s : State) : s.budgetSpent = true ↔ s.cfg.maxSteps = some s.stepCount.toNat := by
  unfold State.budgetSpent
  cases s.cfg.maxSteps with
  | none => simp
  | some n => simp only [beq_iff_eq, Option.some.injEq]; exact eq_comm

/-! ### The operands and the end of an instruction (R75, R104) -/

/-- Combo resolution answers a value for the codes 0 … 6 and INVALID_OPERAND for code 7 (R75). -/
theorem State.resolve_cases (s : State) (i : Instr) (k : Combo) :
    (k ≠ .reserved ∧ ∃ v, s.resolve i k = .ok v) ∨
    (k = .reserved ∧ s.resolve i k = .error (s.raised .invalidOperand i)) := by
  cases k <;> simp [State.resolve]

/-- Every instruction ends in the retire of a result or of a raised fault (R104): it never stops. -/
theorem exec_retires (i : Instr) (s : State) : ∃ x, exec i s = s.retire x := by
  cases i <;> simp only [exec, execAdv, execBxl, execBst, execJnz, execBxc, execOut, execBdv, execCdv] <;> exact ⟨_, rfl⟩

/-- What retiring answers: a next state that is a commit or a taken fault (R104). -/
theorem State.retire_cases (s : State) (x : Except Raised Result) :
    (∃ r, x = .ok r ∧ s.retire x = .next (s.commit r)) ∨ (∃ f, x = .error f ∧ s.retire x = .next (s.takeFault f)) := by
  cases x with
  | ok r => exact .inl ⟨r, rfl, rfl⟩
  | error f => exact .inr ⟨f, rfl, rfl⟩

/-! ### The step (R100 to R106) -/

/-- Everything a step that answers a next state can be: the halt, the budget fault, or the decoded instruction. -/
theorem step_cases (s t : State) (h : step s = .next t) :
    s.runState = .running ∧
    ((s.atEnd = true ∧ t = s.halt) ∨
     (s.atEnd = false ∧ s.budgetSpent = true ∧ t = s.takeFault ⟨.stepBudgetExhausted, .notBegun s.pc⟩) ∨
     (s.atEnd = false ∧ s.budgetSpent = false ∧
       ∃ op operand, s.fetch = .ok (op, operand) ∧ exec (decodePair op operand) s = .next t)) := by
  unfold step State.cycle at h
  split at h
  · refine ⟨by assumption, ?_⟩
    unfold State.runStep at h
    cases he : s.atEnd
    · cases hb : s.budgetSpent
      · simp only [he, hb, Bool.false_eq_true, if_false] at h
        unfold State.runInstr at h
        split at h
        · cases h
        · exact .inr (.inr ⟨rfl, rfl, _, _, by assumption, h⟩)
      · simp only [he, hb, Bool.false_eq_true, if_false, if_true] at h
        cases h
        exact .inr (.inl ⟨rfl, rfl, rfl⟩)
    · simp only [he, if_true] at h
      cases h
      exact .inl ⟨rfl, rfl⟩
  · cases h

/-- A step never stops with a fault but for a fetch that finds no word. -/
theorem step_fault (s : State) (f : Fault) (h : step s = .fault f) : s.fetch = .error f := by
  unfold step State.cycle at h
  split at h
  · unfold State.runStep at h
    split at h
    · cases h
    · split at h
      · cases h
      · unfold State.runInstr at h
        split at h
        · cases h; assumption
        · obtain ⟨x, hx⟩ := exec_retires (decodePair _ _) s
          rw [hx] at h
          cases x <;> cases h
  · cases h

end Sys2Proof.Machine
end

