-- ==== Sys2Proof/Laws/PerInstr.lean ====
section
/-! SUPPORT. What is proved of every instruction, one lemma a constructor. -/

namespace Sys2Proof.Laws

/-- The `match` of an instruction's row of spec/opcode_table.json, on the 6-bit pair view under the mask 56. -/
def TableRow.pattern : Instr → PairView
  | .adv _ => 0
  | .bxl _ => 8
  | .bst _ => 16
  | .jnz _ => 24
  | .bxc _ => 32
  | .out _ => 40
  | .bdv _ => 48
  | .cdv _ => 56

/-- The encoding of an instruction is two words (R71) whose pair view falls under its row of the opcode table (R77). -/
def TableRow.Statement (i : Instr) : Prop :=
  (encode i).length = 2 ∧ i.pairView &&& 56#6 = TableRow.pattern i

/-- The mask 56 keeps the opcode word and clears the operand word. -/
theorem TableRow.pairOf_mask : ∀ op operand : Word3, pairOf op operand &&& 56#6 = pairOf op 0 := by decide

/-- The row of an opcode, from the mask and the pattern. -/
theorem TableRow.of_pattern (i : Instr) (h : pairOf i.opcode 0 = TableRow.pattern i) : TableRow.Statement i :=
  ⟨rfl, (TableRow.pairOf_mask _ _).trans h⟩

theorem TableRow.adv (k : Combo) : TableRow.Statement (.adv k) :=
  TableRow.of_pattern _ (by decide : pairOf 0 0 = (0 : PairView))
theorem TableRow.bxl (l : Word3) : TableRow.Statement (.bxl l) :=
  TableRow.of_pattern _ (by decide : pairOf 1 0 = (8 : PairView))
theorem TableRow.bst (k : Combo) : TableRow.Statement (.bst k) :=
  TableRow.of_pattern _ (by decide : pairOf 2 0 = (16 : PairView))
theorem TableRow.jnz (t : Word3) : TableRow.Statement (.jnz t) :=
  TableRow.of_pattern _ (by decide : pairOf 3 0 = (24 : PairView))
theorem TableRow.bxc (w : Word3) : TableRow.Statement (.bxc w) :=
  TableRow.of_pattern _ (by decide : pairOf 4 0 = (32 : PairView))
theorem TableRow.out (k : Combo) : TableRow.Statement (.out k) :=
  TableRow.of_pattern _ (by decide : pairOf 5 0 = (40 : PairView))
theorem TableRow.bdv (k : Combo) : TableRow.Statement (.bdv k) :=
  TableRow.of_pattern _ (by decide : pairOf 6 0 = (48 : PairView))
theorem TableRow.cdv (k : Combo) : TableRow.Statement (.cdv k) :=
  TableRow.of_pattern _ (by decide : pairOf 7 0 = (56 : PairView))

end Sys2Proof.Laws
end

