-- ==== Sys2Proof/Tests/Slice0.lean ====
section
/-! SUPPORT. The model's own tests: the checks of WellFormed on ill-formed terms, decoding of words written out from the
spec's encodings, one step or one instruction on values of spec/95_test_vectors.md, and a witness for the hypotheses of
every statement. -/

namespace Sys2Proof.Tests
open Sys2Proof.Machine

/-! ### Small states -/

/-- A small block: programs of up to 8 words, no budget, unbounded output. -/
def small : Config := { progMaxLen := 8, ipW := 4, outDepth := none, maxSteps := none }

/-- A run in progress at `pc` on the program `ws` with the registers A, B, C. -/
def running (ws : List Word3) (a b c : Word) (pc : Nat) : State :=
  { State.resetWith small with
    a := a, b := b, c := c, aLd := true, bLd := true, cLd := true
    prog := Memory.ofWords ws, len := ws.length, pLd := true, pc := pc, runState := .running }

/-- The same block with its run ended. -/
def halted (ws : List Word3) (a b c : Word) : State := (running ws a b c 0).halt

/-- The next state of an outcome. -/
def nextOf (x : Host.Outcome State Fault Refusal) : Option State :=
  match x with
  | .next t => some t
  | .fault _ => none
  | .refused _ => none

/-- What the tests of one instruction compare. -/
structure Brief where
  a : Word
  b : Word
  c : Word
  pc : Nat
  out : List Word3
  cause : Cause
deriving DecidableEq, Repr

/-- A, B, C, pc, OUT and CAUSE after one instruction. -/
def after (i : Instr) (s : State) : Option Brief :=
  (nextOf (exec i s)).map fun t => ⟨t.a, t.b, t.c, t.pc, t.out, t.cause⟩

/-! ### WellFormed refuses each ill-formed term -/

theorem test_config_ok : small.wellFormed = true ∧ Config.standard.wellFormed = true := by decide
theorem test_config_odd_max_refused : ({ small with progMaxLen := 7 } : Config).wellFormed = false := by decide
theorem test_config_max_below_2_refused : ({ small with progMaxLen := 0 } : Config).wellFormed = false := by decide
theorem test_config_narrow_ip_refused : ({ small with ipW := 3 } : Config).wellFormed = false := by decide
theorem test_program_ok : programWellFormed small [3, 0] = true := by decide
theorem test_program_odd_refused : programWellFormed small [0, 1, 5] = false := by decide
theorem test_program_empty_refused : programWellFormed small [] = false := by decide
theorem test_program_too_long_refused : programWellFormed small [0, 0, 0, 0, 0, 0, 0, 0, 0, 0] = false := by decide
theorem test_illegal_refused :
    [Instr.adv .reserved, .bst .reserved, .out .reserved, .bdv .reserved, .cdv .reserved].all (!·.legal) = true := by decide
theorem test_bitlen : bitlen 7 = 3 ∧ bitlen 8 = 4 := by decide

/-! ### Decoding of words written out from R75 and R77 -/

theorem test_decode_adv : decode [0b000#3, 0b001#3] = .ok (.adv (.lit 1), []) := by rfl
theorem test_decode_bxl : decode [0b001#3, 0b111#3] = .ok (.bxl 7, []) := by rfl
theorem test_decode_bst : decode [0b010#3, 0b100#3] = .ok (.bst (.reg .A), []) := by rfl
theorem test_decode_jnz : decode [0b011#3, 0b101#3] = .ok (.jnz 5, []) := by rfl
theorem test_decode_bxc : decode [0b100#3, 0b001#3] = .ok (.bxc 1, []) := by rfl
theorem test_decode_out : decode [0b101#3, 0b101#3] = .ok (.out (.reg .B), []) := by rfl
theorem test_decode_bdv : decode [0b110#3, 0b110#3] = .ok (.bdv (.reg .C), []) := by rfl
theorem test_decode_cdv : decode [0b111#3, 0b111#3, 0b010#3] = .ok (.cdv .reserved, [0b010#3]) := by rfl
theorem test_decode_missing_words : decode [] = .error .noOpcode ∧ decode [5] = .error .noOperand := ⟨rfl, rfl⟩
/-- Pair views of programs P1 and P3: 0o54 is `out 4` and 0o75 is `cdv 5`. -/
theorem test_table_words :
    decodeTableWord 6 0o54 = some (.out (.reg .A)) ∧ decodeTableWord 8 0o75 = some (.cdv (.reg .B)) ∧
    decodeTableWord 8 64 = none := by decide
theorem test_encode : encode (.jnz 3) = [3, 3] ∧ (Instr.bxl 5).pairView = 0o15 := by decide

/-! ### One instruction (the rows of Part 2 of 95_test_vectors.md) -/

/-- V-SHIFT: adv 6 on 40, 0, 2. -/
theorem test_adv_6 : after (.adv (.reg .C)) (running [] 40 0 2 0) = some ⟨10, 0, 2, 2, [], .noCause⟩ := by decide
/-- V-SHIFT: adv 4 on 3, 0, 0 (the count is the old A), and adv 5 with count 64. -/
theorem test_adv_4 : after (.adv (.reg .A)) (running [] 3 0 0 0) = some ⟨0, 0, 0, 2, [], .noCause⟩ ∧
    after (.adv (.reg .B)) (running [] (BitVec.allOnes 64) 64 0 0) = some ⟨0, 64, 0, 2, [], .noCause⟩ := by decide
/-- V-SHIFT: bdv 5 on 12, 2, 0 and on M, 60, 0. -/
theorem test_bdv_5 : after (.bdv (.reg .B)) (running [] 12 2 0 0) = some ⟨12, 3, 0, 2, [], .noCause⟩ ∧
    after (.bdv (.reg .B)) (running [] (BitVec.allOnes 64) 60 0 0) =
      some ⟨BitVec.allOnes 64, 15, 0, 2, [], .noCause⟩ := by decide
/-- V-SHIFT: bdv 7 faults with the state unchanged. -/
theorem test_bdv_7 : after (.bdv .reserved) (running [] 5 9 9 0) = some ⟨5, 9, 9, 0, [], .invalidOperand⟩ := by decide
/-- V-SHIFT: cdv 6 on 7, 0, 1, and on 5, 0, M. -/
theorem test_cdv_6 : after (.cdv (.reg .C)) (running [] 7 0 1 0) = some ⟨7, 0, 3, 2, [], .noCause⟩ ∧
    after (.cdv (.reg .C)) (running [] 5 0 (BitVec.allOnes 64) 0) = some ⟨5, 0, 0, 2, [], .noCause⟩ := by decide
/-- V-SHIFT: cdv 5 on 2024, 3, 0. -/
theorem test_cdv_5 : after (.cdv (.reg .B)) (running [] 2024 3 0 0) = some ⟨2024, 3, 253, 2, [], .noCause⟩ := by decide
/-- V-B: bxl 7 on B = 29 and on B = M. -/
theorem test_bxl_7 : after (.bxl 7) (running [] 0 29 0 0) = some ⟨0, 26, 0, 2, [], .noCause⟩ ∧
    after (.bxl 7) (running [] 0 (BitVec.allOnes 64) 0 0) =
      some ⟨0, 0xfffffffffffffff8, 0, 2, [], .noCause⟩ := by decide
/-- V-B: bst 6 on C = 13, and bst 5 reads the old B. -/
theorem test_bst_6 : after (.bst (.reg .C)) (running [] 0 0 13 0) = some ⟨0, 5, 13, 2, [], .noCause⟩ ∧
    after (.bst (.reg .B)) (running [] 0 15 0 0) = some ⟨0, 7, 0, 2, [], .noCause⟩ := by decide
/-- V-B: bst 7 faults with B unchanged. -/
theorem test_bst_7 : after (.bst .reserved) (running [] 0 1 0 0) = some ⟨0, 1, 0, 0, [], .invalidOperand⟩ := by decide
/-- V-B: bxc 0 and bxc 7 on B = 2024, C = 43690. -/
theorem test_bxc : after (.bxc 0) (running [] 0 2024 43690 0) = some ⟨0, 44354, 43690, 2, [], .noCause⟩ ∧
    after (.bxc 7) (running [] 0 2024 43690 0) = some ⟨0, 44354, 43690, 2, [], .noCause⟩ := by decide
/-- V-JNZ: jnz 0 at 4, taken and not taken. -/
theorem test_jnz_0 : after (.jnz 0) (running [] 1012 0 0 4) = some ⟨1012, 0, 0, 0, [], .noCause⟩ ∧
    after (.jnz 0) (running [] 0 0 0 4) = some ⟨0, 0, 0, 6, [], .noCause⟩ := by decide
/-- V-JNZ: jnz 3 at 0, an odd target, and W3: jnz 5 is literal 5, not B. -/
theorem test_jnz_odd : after (.jnz 3) (running [] 1 0 0 0) = some ⟨1, 0, 0, 3, [], .noCause⟩ ∧
    after (.jnz 5) (running [] 1 0 0 4) = some ⟨1, 0, 0, 5, [], .noCause⟩ := by decide
/-- V-OUT: out 4 on 1012, and out 6 on C = 6172. -/
theorem test_out : after (.out (.reg .A)) (running [] 1012 0 0 0) = some ⟨1012, 0, 0, 2, [4], .noCause⟩ ∧
    after (.out (.reg .C)) (running [] 0 0 6172 0) = some ⟨0, 0, 6172, 2, [4], .noCause⟩ := by decide
/-- V-OUT: out 4 and out 7 with OUT_DEPTH = 2 and two values out. -/
theorem test_out_full :
    (nextOf (exec (.out (.reg .A)) { running [] 1 0 0 0 with out := [4, 2], cfg := { small with outDepth := some 2 } })).map
      (fun t => (t.cause, t.faultInsn, t.out)) = some (.outputOverflow, 0o54, [4, 2]) ∧
    (nextOf (exec (.out .reserved) { running [] 1 0 0 0 with out := [4, 2], cfg := { small with outDepth := some 2 } })).map
      (fun t => (t.cause, t.faultInsn, t.out)) = some (.invalidOperand, 0o57, [4, 2]) := by decide

/-! ### One step, one transaction -/

/-- Program P4: out 7 at 2 faults with FAULT_IP = 2 and FAULT_INSN = 47. -/
theorem test_step_p4 : (nextOf (step (running [2, 4, 5, 7, 3, 0] 10 2 0 2))).map
    (fun t => (t.runState, t.cause, t.faultIp, t.faultInsn, t.pc, t.stepCount)) =
      some (.faulted, .invalidOperand, 2, 47, 2, 0) := by decide
/-- Program P6: the pair at the odd index 3 is bxl 5, and index 5 of 6 halts. -/
theorem test_step_p6 : (nextOf (step (running [3, 3, 5, 1, 5, 2] 1 0 0 3))).map (fun t => (t.b, t.pc, t.stepCount)) =
      some (5, 5, 1) ∧
    (nextOf (step (running [3, 3, 5, 1, 5, 2] 1 5 0 5))).map (fun t => (t.runState, t.pc)) = some (.halted, 5) := by
  decide
/-- V-CYCLE: P1 with MAX_STEPS = 0. -/
theorem test_step_budget :
    (nextOf (step { running [0, 1, 5, 4, 3, 0] 2024 0 0 0 with cfg := { small with maxSteps := some 0 } })).map
      (fun t => (t.cause, t.faultIp, t.faultInsn, t.stepCount)) = some (.stepBudgetExhausted, 0, 0, 0) := by decide
/-- V-START: START after RESET, and after loading `[0, 1, 5]` and all registers. -/
theorem test_start : (State.reset.transact .start).1.cause = .notLoaded ∧
    (State.reset.transactAll (bootLoads [0, 1, 5] 1 2 3 ++ [.start])).cause = .malformedProgram ∧
    (State.reset.transactAll [.loadProgram [0, 1, 5], .start]).cause = .notLoaded := by decide
/-- R34: STATUS of a run in progress with all loaded. -/
theorem test_status : (running [3, 0] 1 0 0 0).status = 0b111101 := by decide
/-- W2 with code 4 and A = M. -/
theorem test_combo : (running [] 100 200 300 0).comboNumber 5 = some 200 ∧
    (running [] (BitVec.allOnes 64) 0 0 0).comboNumber 4 = some (2 ^ 64 - 1) := by decide
/-- The step from reset with an instruction placed runs it: 0o14 is bxl 4. -/
theorem test_fetch_word : (nextOf (step (State.reset.withFetchWord 8 0o14))).map (fun t => (t.b, t.pc)) = some (4, 2) := by
  decide
/-- R83: text, a comment, a rejected operand and a warning. -/
theorem test_assemble :
    assembleLine ['a', 'd', 'v', ' ', ' ', '1', ' ', ';', 'x'] = .ok (some ⟨.adv (.lit 1), false⟩) ∧
    assembleLine ['o', 'u', 't', ' ', '7'] = .ok (some ⟨.out .reserved, true⟩) ∧
    assembleLine ['j', 'n', 'z', ' ', '8'] = .error .badOperand ∧
    assemble [['a', 'd', 'v', ' ', '1'], ['o', 'u', 't', ' ', '4'], ['j', 'n', 'z', ' ', '0']] =
      .ok [0, 1, 5, 4, 3, 0] := by
  refine ⟨rfl, rfl, rfl, rfl⟩

/-! ### Witnesses for the hypotheses of the statements -/

/-- A state in the middle of a run that keeps the invariant. -/
theorem test_witness_inv : (running [3, 0] 1 0 0 0).Inv where
  cfg_ok := by decide
  prog_ok := by decide
  len_le := by decide
  unloaded := by decide
  pc_le := by decide
  pc_run := by decide
  out_le := by intro d h; cases h
  count_le := by intro n h; cases h
  run_ok := by decide
  idle_ok := by decide
  faulted_iff := by decide
  cause_ok := by decide
  ip_ok := by decide
  insn_ok := by decide

/-- The same with a budget of 2 and one instruction completed. -/
theorem test_witness_inv_budget :
    ({ running [3, 0] 1 0 0 0 with stepCount := 1, cfg := { small with maxSteps := some 2 } } : State).Inv where
  cfg_ok := by decide
  prog_ok := by decide
  len_le := by decide
  unloaded := by decide
  pc_le := by decide
  pc_run := by decide
  out_le := by intro d h; cases h
  count_le := by intro n h _; cases h; decide
  run_ok := by decide
  idle_ok := by decide
  faulted_iff := by decide
  cause_ok := by decide
  ip_ok := by decide
  insn_ok := by decide

theorem test_witness_AdvShiftsAIntoA :
    (running [] 9 64 64 0).comboNumber (0 : Word3).toNat = some 0 ∧ (running [] 9 64 64 0).comboNumber (6 : Word3).toNat = some 64 ∧
    (running [] 9 64 64 0).comboNumber (7 : Word3).toNat = none ∧ 64 ≤ (running [] 9 64 64 0).b.toNat ∧
    64 ≤ (running [] 9 64 64 0).c.toNat ∧ (running [] 0 1 1 0).a = 0 ∧
    (∃ t, exec (.adv (Combo.ofCode 5)) (running [] 9 64 64 0) = .next t) ∧
    (∃ t, exec (.adv (Combo.ofCode 7)) (running [] 9 64 64 0) = .next t) :=
  ⟨by decide, by decide, by decide, by decide, by decide, by decide, ⟨_, rfl⟩, ⟨_, rfl⟩⟩
theorem test_witness_BdvShiftsAIntoB :
    (running [] 9 1 2 0).comboNumber (5 : Word3).toNat = some 1 ∧ (∃ t, exec (.bdv (Combo.ofCode 5)) (running [] 9 1 2 0) = .next t) ∧
    (∃ t, exec (.bdv (Combo.ofCode 0)) (running [] 9 1 2 0) = .next t) ∧
    (∃ t, exec (.bdv (Combo.ofCode 4)) (running [] 9 1 2 0) = .next t) :=
  ⟨by decide, ⟨_, rfl⟩, ⟨_, rfl⟩, ⟨_, rfl⟩⟩
theorem test_witness_CdvShiftsAIntoC :
    (running [] 9 1 2 0).comboNumber (6 : Word3).toNat = some 2 ∧ (∃ t, exec (.cdv (Combo.ofCode 6)) (running [] 9 1 2 0) = .next t) ∧
    (∃ t, exec (.cdv (Combo.ofCode 0)) (running [] 9 1 2 0) = .next t) ∧
    (∃ t, exec (.cdv (Combo.ofCode 4)) (running [] 9 1 2 0) = .next t) :=
  ⟨by decide, ⟨_, rfl⟩, ⟨_, rfl⟩, ⟨_, rfl⟩⟩
/-- V-SHR at the boundary counts 0, 1, 63 and 64. -/
theorem test_witness_ShiftIsUnmaskedFloorDivision :
    shr (BitVec.allOnes 64) 0 = BitVec.allOnes 64 ∧ shr (BitVec.allOnes 64) 1 = 9223372036854775807 ∧
    shr (BitVec.allOnes 64) 63 = 1 ∧ shr (BitVec.allOnes 64) 64 = 0 ∧ shr 1 64 = 0 ∧
    shr (BitVec.allOnes 64) (BitVec.allOnes 64) = 0 := by decide
theorem test_witness_BxlXorsLiteralIntoB :
    ∃ t u, exec (.bxl 7) (running [] 0 29 0 0) = .next t ∧ exec (.bxl 7) t = .next u := ⟨_, _, rfl, rfl⟩
theorem test_witness_BstReducesComboModEight :
    (running [] 10 15 13 0).comboNumber (3 : Word3).toNat = some 3 ∧ (running [] 10 15 13 0).comboNumber (4 : Word3).toNat = some 10 ∧
    (∀ w : Word3, ∃ t, exec (.bst (Combo.ofCode w)) (running [] 10 15 13 0) = .next t) := by
  refine ⟨by decide, by decide, fun w => ?_⟩
  obtain ⟨x, hx⟩ := exec_retires (.bst (Combo.ofCode w)) (running [] 10 15 13 0)
  rcases State.retire_cases (running [] 10 15 13 0) x with ⟨_, _, h⟩ | ⟨_, _, h⟩ <;> exact ⟨_, hx.trans h⟩
theorem test_witness_BxcXorsCIntoB : (∃ t, exec (.bxc 7) (running [] 0 5 5 0) = .next t) ∧
    (running [] 0 5 5 0).b = (running [] 0 5 5 0).c ∧ (running [] 0 5 0 0).c = 0 := ⟨⟨_, rfl⟩, rfl, rfl⟩
/-- jnz 2 at index 2: V-JNZ's jump to itself. -/
theorem test_witness_JnzJumpsWhenANonzero :
    (running [0, 0, 3, 2] 1 0 0 2).a ≠ 0 ∧ (running [0, 0, 3, 2] 0 0 0 2).a = 0 ∧
    (running [0, 0, 3, 2] 1 0 0 2).runState = .running ∧ (running [0, 0, 3, 2] 1 0 0 2).cfg.maxSteps = none ∧
    (running [0, 0, 3, 2] 1 0 0 2).fetch = .ok (3, 2) ∧ (running [0, 0, 3, 2] 1 0 0 2).pc = (2 : Word3).toNat :=
  ⟨by decide, by decide, rfl, rfl, rfl, rfl⟩
theorem test_witness_OutAppendsComboModEight :
    let full : State := { running [] 1 0 0 0 with out := [4, 2], cfg := { small with outDepth := some 2 } }
    let room : State := { running [] 1 0 0 0 with out := [4], cfg := { small with outDepth := some 2 } }
    full.comboNumber (4 : Word3).toNat = some 1 ∧ full.cfg.outDepth = some full.out.length ∧
    room.comboNumber (6 : Word3).toNat = some 0 ∧ room.cfg.outDepth ≠ some room.out.length ∧
    (∃ t, exec (.out (Combo.ofCode 4)) room = .next t ∧ t.out = room.out ++ [1]) :=
  ⟨by decide, by decide, by decide, by decide, ⟨_, rfl, by decide⟩⟩
theorem test_witness_ComboCodesResolve : (0 : Word3).toNat ≤ 3 ∧ (3 : Word3).toNat ≤ 3 := by decide
theorem test_witness_IllegalEncodingsAreExactlyFive :
    (Instr.cdv .reserved).legal = false ∧ (halted [3, 0] 1 0 0).runState ≠ .running ∧
    [0, 7, 0, 7, 0, 7, 0, (7 : Word3)].length ≤ (halted [3, 0] 1 0 0).cfg.progMaxLen := by decide
theorem test_witness_InvalidOperandOnlyFromOperandSeven :
    let s := running [2, 4, 5, 7] 10 2 0 2
    (Instr.bxl 7).legal = true ∧ s.cause ≠ .invalidOperand ∧ (∃ t, exec (.bxl 7) s = .next t) ∧
    (∃ t, step s = .next t ∧ t.cause = .invalidOperand) ∧ s.runState = .running ∧ s.len > s.pc + 1 ∧
    s.budgetSpent = false ∧ s.fetch = .ok (5, 7) ∧ (5 : Word3) ∈ ([0, 2, 5, 6, 7] : List Word3) :=
  ⟨by decide, by decide, ⟨_, rfl⟩, ⟨_, rfl, rfl⟩, rfl, by decide, by decide, rfl, by decide⟩
theorem test_witness_ExecFrame :
    (∃ t, exec (.adv (.lit 1)) (running [] 9 1 2 0) = .next t) ∧ (Instr.adv (.lit 1)).writes .B = false ∧
    (∀ k, Instr.adv (.lit 1) ≠ .out k) ∧ (∃ t, exec (.out .reserved) (running [] 9 1 2 0) = .next t) :=
  ⟨⟨_, rfl⟩, by decide, by simp, ⟨_, rfl⟩⟩
theorem test_witness_RegisterReadWriteTable :
    (Instr.bdv (.lit 1)).reads .B = false ∧ (Instr.bdv (.lit 1)).writes .B = true ∧ (Instr.jnz 0).writes .A = false ∧
    (∃ t, exec (.jnz 0) (running [] 9 1 2 0) = .next t) ∧
    (∃ t, step (running [1, 7] 0 0 0 0) = .next t ∧ t.getReg .B ≠ (running [1, 7] 0 0 0 0).getReg .B) ∧
    ((halted [1, 7] 0 0 0).transact (.writeReg .A 5)).1.getReg .A ≠ (halted [1, 7] 0 0 0).getReg .A :=
  ⟨by decide, by decide, by decide, ⟨_, rfl⟩, ⟨_, rfl, by decide⟩, by decide⟩
/-- The last pair of the program, at an odd pc. -/
theorem test_witness_StepRunsDecodedInstruction :
    let s := running [3, 3, 5, 1, 5] 1 0 0 3
    s.runState = .running ∧ s.pc + 1 < s.len ∧ s.budgetSpent = false ∧ Memory.read s.prog s.pc = some 1 ∧
    Memory.read s.prog (s.pc + 1) = some 5 ∧ decode [1, 5] = .ok (.bxl 5, []) :=
  ⟨rfl, by decide, by decide, by decide, by decide, rfl⟩
theorem test_witness_HaltExactlyWithoutPair :
    let s := running [3, 1] 1 0 0 1
    s.runState = .running ∧ s.len ≤ s.pc + 1 ∧ ∃ t, step s = .next t ∧ t.runState = .halted :=
  ⟨rfl, by decide, ⟨_, rfl, rfl⟩⟩
theorem test_witness_StepBudgetTest :
    let spent : State := { running [3, 0] 1 0 0 0 with stepCount := 5, cfg := { small with maxSteps := some 5 } }
    let left : State := { running [3, 0] 1 0 0 0 with stepCount := 4, cfg := { small with maxSteps := some 5 } }
    spent.runState = .running ∧ spent.pc + 1 < spent.len ∧ spent.cfg.maxSteps = some spent.stepCount.toNat ∧
    left.cfg.maxSteps ≠ some left.stepCount.toNat ∧ left.cause ≠ .stepBudgetExhausted ∧
    (∃ t, step left = .next t) ∧ (running [3, 0] 1 0 0 0).cfg.maxSteps ≠ some 0 :=
  ⟨rfl, by decide, by decide, by decide, by decide, ⟨_, rfl⟩, by decide⟩
theorem test_witness_NoStepOutsideRun :
    State.reset.runState ≠ .running ∧ (halted [3, 0] 1 0 0).runState ≠ .running ∧
    (State.reset.transact .start).1.runState = .faulted := by decide
theorem test_witness_FaultsArePrecise :
    (∃ t, step (running [5, 7] 1 0 0 0) = .next t ∧ t.runState = .faulted) ∧
    (∃ t, State.reset.transact .start = (t, .accepted) ∧ t.runState = .faulted) :=
  ⟨⟨_, rfl, rfl⟩, ⟨_, rfl, rfl⟩⟩
theorem test_witness_PriorityOfConditions :
    let tight : Config := { small with outDepth := some 0, maxSteps := some 0 }
    let ended : State := { running [3, 1] 1 0 0 1 with cfg := tight }
    let spent : State := { running [5, 7] 1 0 0 0 with cfg := tight }
    let full7 : State := { running [5, 7] 1 0 0 0 with cfg := { small with outDepth := some 0 } }
    let full6 : State := { running [5, 6] 1 0 0 0 with cfg := { small with outDepth := some 0 } }
    (ended.runState = .running ∧ ended.len ≤ ended.pc + 1) ∧
    (spent.runState = .running ∧ spent.pc + 1 < spent.len ∧ spent.budgetSpent = true) ∧
    (full7.pc + 1 < full7.len ∧ full7.budgetSpent = false ∧ full7.outFull = true ∧ full7.fetch = .ok (5, 7)) ∧
    (full6.pc + 1 < full6.len ∧ full6.budgetSpent = false ∧ full6.outFull = true ∧ full6.fetch = .ok (5, 6)) ∧
    (State.reset.runState ≠ .running ∧ State.reset.allLoaded = false) ∧
    ((halted [0, 1, 5] 1 0 0).runState ≠ .running ∧ (halted [0, 1, 5] 1 0 0).allLoaded = true ∧
      lengthWellFormed (halted [0, 1, 5] 1 0 0).len = false) :=
  ⟨by decide, by decide, ⟨by decide, by decide, by decide, rfl⟩, ⟨by decide, by decide, by decide, rfl⟩, by decide,
    by decide⟩
theorem test_witness_StepCountCountsInstructions :
    let s : State := { running [1, 7] 0 0 0 0 with stepCount := 0xfffffffffffffffe }
    (∃ t, step s = .next t ∧ t.runState = .running) ∧ s.stepCount.toNat < 2 ^ 64 - 1 ∧
    (∃ t, step (running [1, 7] 0 0 0 2) = .next t ∧ t.runState ≠ .running) ∧
    (∃ t, (halted [1, 7] 0 0 0).transact .start = (t, .accepted) ∧ t.runState = .running) :=
  ⟨⟨_, rfl, rfl⟩, by decide, ⟨_, rfl, by decide⟩, ⟨_, rfl, rfl⟩⟩
theorem test_witness_PcChangesOnlyAsStated :
    let s : State := { halted [1, 7] 0 0 0 with pc := 2 }
    (∃ t, step (running [3, 1] 1 0 0 0) = .next t ∧ t.runState = .running) ∧
    (∃ t, step (running [5, 7] 1 0 0 0) = .next t ∧ t.runState ≠ .running) ∧
    (Transaction.start ≠ .reset ∧ (s.transact .start).1.pc ≠ s.pc) :=
  ⟨⟨_, rfl, rfl⟩, ⟨_, rfl, by decide⟩, by decide⟩
theorem test_witness_OutputOnlyGrowsByOut :
    ∃ t, step (running [5, 2] 0 0 0 0) = .next t ∧ t.out ≠ (running [5, 2] 0 0 0 0).out := ⟨_, rfl, by decide⟩
theorem test_witness_ProgramIsReadOnlyDuringRun :
    (∃ t, step (running [5, 2] 0 0 0 0) = .next t) ∧ (running [5, 2] 0 0 0 0).runState = .running ∧
    Transaction.loadProgram [3, 0] ≠ .reset := ⟨⟨_, rfl⟩, rfl, by simp⟩
theorem test_witness_RegistersNeverOutgrowInputs :
    (∀ r, ((running [4, 0] 7 7 7 0).getReg r).toNat < 2 ^ 3) ∧ ∃ t, step (running [4, 0] 7 7 7 0) = .next t :=
  ⟨by intro r; cases r <;> decide, ⟨_, rfl⟩⟩
theorem test_witness_JumpPastEndHaltsNext :
    let s := running [3, 1] 1 0 0 0
    s.runState = .running ∧ s.budgetSpent = false ∧ s.fetch = .ok (3, 1) ∧ s.a ≠ 0 ∧ s.len ≤ (1 : Word3).toNat + 1 :=
  ⟨rfl, by decide, rfl, by decide, by decide⟩
theorem test_witness_ControlRegistersInvisible :
    let s := running [3, 0] 1 0 0 0
    let t : State := { s with aLd := false, stepCount := 9, faultIp := 3, cause := .outputOverflow }
    s.cfg.maxSteps = none ∧ s.visible = t.visible ∧ s ≠ t ∧ (s.steps 3).isSome = true :=
  ⟨rfl, rfl, by decide, by decide⟩
theorem test_witness_UnboundedRegistersAgree :
    (running [3, 0] 1 0 0 0).Inv ∧ (running [3, 0] 1 0 0 0).cfg.maxSteps = none ∧
    (running [3, 0] 1 0 0 0).cfg.outDepth = none := ⟨test_witness_inv, rfl, rfl⟩
theorem test_witness_BudgetEndsEveryRun :
    let s : State := { running [3, 0] 1 0 0 0 with stepCount := 1, cfg := { small with maxSteps := some 2 } }
    s.Inv ∧ s.runState = .running ∧ s.cfg.maxSteps = some 2 ∧ 2 < 2 ^ 64 := ⟨test_witness_inv_budget, rfl, rfl, by decide⟩
/-- R8's constraints at their boundary: PROG_MAX_LEN = 2 and IP_W = 3. -/
theorem test_witness_InvariantAtPowerOn :
    ({ progMaxLen := 2, ipW := 3, outDepth := some 0, maxSteps := some 0 } : Config).wellFormed = true := by decide
theorem test_witness_StepKeepsInvariant :
    (running [3, 0] 1 0 0 0).Inv ∧ ∃ t, step (running [3, 0] 1 0 0 0) = .next t := ⟨test_witness_inv, ⟨_, rfl⟩⟩
theorem test_witness_TransactionKeepsInvariant : (running [3, 0] 1 0 0 0).Inv := test_witness_inv
/-- A run in progress that the boot order reaches from power-on. -/
theorem test_witness_ReachableStatesKeepInvariant :
    ∃ s : State, s.Reachable ∧ s.runState = .running ∧ s.readReg .A = some 1 ∧ BlockReg.width s.cfg .A = some 64 := by
  have h0 := State.Reachable.power small (by decide)
  have h1 := State.Reachable.event _ _ (.transaction (.loadProgram [3, 0])) h0 rfl
  have h2 := State.Reachable.event _ _ (.transaction (.writeReg .A 1)) h1 rfl
  have h3 := State.Reachable.event _ _ (.transaction (.writeReg .B 0)) h2 rfl
  have h4 := State.Reachable.event _ _ (.transaction (.writeReg .C 0)) h3 rfl
  have h5 := State.Reachable.event _ _ (.transaction .start) h4 rfl
  exact ⟨_, h5, rfl, rfl, rfl⟩
theorem test_witness_RunningStepCompletes : (running [3, 0] 1 0 0 0).Inv ∧ (running [3, 0] 1 0 0 0).runState = .running :=
  ⟨test_witness_inv, rfl⟩
theorem test_witness_ProgramStoreHoldsTheProgram : (running [3, 0] 1 0 0 0).Inv := test_witness_inv
theorem test_witness_HostRegistersFitTheirWidths :
    ∃ (s : State) (v w : Nat), s.Reachable ∧ s.readReg .OUT_COUNT = some v ∧ BlockReg.width s.cfg .OUT_COUNT = some w :=
  ⟨_, _, _, .power { small with outDepth := some 0 } (by decide), rfl, rfl⟩
theorem test_witness_DecodeEncodeAgree :
    encode (.adv (.lit 3)) = encode (.adv (.lit 3)) ∧ (Instr.bxl 4).pairView = (Instr.bxl 4).pairView := ⟨rfl, rfl⟩
theorem test_witness_PairViewsDecode : (64 ≤ 64 ∧ 64 < 256) ∧ (64 ≤ 255 ∧ 255 < 256) := by decide
theorem test_witness_ResetClearsEverything :
    ∃ t, t = ((running [3, 0] 1 0 0 0).transact .reset).1 ∧ (running [3, 0] 1 0 0 0).runState = .running :=
  ⟨_, rfl, rfl⟩
theorem test_witness_WriteRegLoadsRegister :
    (halted [3, 0] 1 0 0).runState ≠ .running ∧ (running [3, 0] 1 0 0 0).runState = .running := by decide
/-- LOAD_PROGRAM at PROG_MAX_LEN words, one word more, and an odd length. -/
theorem test_witness_LoadProgramReplacesTheStore :
    let s := halted [3, 0] 1 0 0
    s.runState ≠ .running ∧ [0, 0, 0, 0, 0, 0, 0, (0 : Word3)].length ≤ s.cfg.progMaxLen ∧
    s.cfg.progMaxLen < [0, 0, 0, 0, 0, 0, 0, 0, (0 : Word3)].length ∧ [0, 1, (5 : Word3)].length % 2 = 1 ∧
    ([] : List Word3).length < 2 ∧ s.aLd = true ∧ s.bLd = true ∧ s.cLd = true := by decide
theorem test_witness_StartLaunchesOrFaults :
    (running [3, 0] 1 0 0 0).runState = .running ∧ (halted [3, 0] 1 0 0).runState ≠ .running ∧
    ¬(State.reset.aLd = true ∧ State.reset.bLd = true ∧ State.reset.cLd = true ∧ State.reset.pLd = true) ∧
    (halted [3, 0] 1 0 0).allLoaded = true ∧ (halted [3, 0] 1 0 0).len % 2 = 0 ∧ 2 ≤ (halted [3, 0] 1 0 0).len ∧
    (halted [0, 1, 5] 1 0 0).len % 2 = 1 ∧ (halted [] 1 0 0).len < 2 := by decide
theorem test_witness_RunningRefusesTheHost :
    (running [3, 0] 1 0 0 0).runState = .running ∧ Transaction.read 0x04 ≠ .reset ∧ Transaction.start ≠ .reset ∧
    (halted [3, 0] 1 0 0).runState ≠ .running ∧ (∀ n, Transaction.read 0x0B = .read n → n ≤ 0x0B) ∧
    (∀ ws, Transaction.read 0x0B = .loadProgram ws → ws.length ≤ 8) :=
  ⟨rfl, by decide, by decide, by decide, fun n h => by cases h; decide, fun ws h => by cases h⟩
theorem test_witness_RefusedTransactionChangesNothing :
    ((running [3, 0] 1 0 0 0).transact (.writeReg .A 5)).2 = .refused ∧
    ((running [3, 0] 1 0 0 0).transact (.read 12)).2 = .refused := by decide
theorem test_witness_ReadAnswersTheRegister : State.reset.runState ≠ .running ∧ 0x0B < 12 := by decide
theorem test_witness_BootReachesTheLaunchState :
    programWellFormed small [3, 0] = true ∧
    [Transaction.writeReg .C 3, .loadProgram [3, 0], .writeReg .B 2, .writeReg .A 1].Perm (bootLoads [3, 0] 1 2 3) := by
  decide
theorem test_witness_RunEndIsResultOrFault :
    (∃ t, step (running [3, 1] 1 0 0 1) = .next t ∧ t.runState = .halted) ∧
    (∃ t, step (running [5, 7] 1 0 0 0) = .next t ∧ t.runState = .faulted) ∧
    (∃ t, step (running [3, 1] 1 0 0 0) = .next t ∧ t.runState = .running) := ⟨⟨_, rfl, rfl⟩, ⟨_, rfl, rfl⟩, ⟨_, rfl, rfl⟩⟩
theorem test_witness_OnlyTheHostLeavesFaulted :
    (State.reset.transact .start).1.runState = .faulted ∧ Transaction.writeReg .A 5 ≠ .reset ∧
    Transaction.writeReg .A 5 ≠ .start := by decide
theorem test_witness_AssemblerRejectsBadOperands : '8' ≠ ' ' ∧ '8' ≠ ';' ∧ ∀ w : Word3, '8' ≠ digitOf w := by decide

end Sys2Proof.Tests
end

section
/-! PROOFS. The rules of the state operations that every statement about exec and step goes through: what a list of
register writes and a commit leave in each field, and how both commute with a register write from outside. -/

namespace Sys2Proof.Machine

/-! ### A list of register writes -/

/-- The register writes of a result, first to last; the part of a commit that touches A, B and C (R105). -/
def State.writeAll (s : State) (ws : List (Reg × Word)) : State := ws.foldl (fun u w => u.setReg w.1 w.2) s

@[simp] theorem State.writeAll_nil (s : State) : s.writeAll [] = s := rfl

@[simp] theorem State.writeAll_cons (s : State) (w : Reg × Word) (ws : List (Reg × Word)) :
    s.writeAll (w :: ws) = (s.setReg w.1 w.2).writeAll ws := rfl

/-- Register writes change A, B and C alone. -/
theorem State.writeAll_frame (s : State) (ws : List (Reg × Word)) :
    s.writeAll ws = { s with a := (s.writeAll ws).a, b := (s.writeAll ws).b, c := (s.writeAll ws).c } := by
  induction ws generalizing s with
  | nil => rfl
  | cons w ws ih =>
    obtain ⟨r, v⟩ := w
    rw [State.writeAll_cons, ih]
    cases r <;> rfl

/-- After register writes, a register holds a value written to it, or its old one. -/
theorem State.getReg_writeAll (s : State) (ws : List (Reg × Word)) (q : Reg) :
    (s.writeAll ws).getReg q = s.getReg q ∨ ∃ v, (q, v) ∈ ws ∧ (s.writeAll ws).getReg q = v := by
  induction ws generalizing s with
  | nil => exact .inl rfl
  | cons w ws ih =>
    obtain ⟨r, v⟩ := w
    rcases ih (s.setReg r v) with hkeep | ⟨u, hmem, hu⟩
    · by_cases hq : q = r
      · subst hq
        exact .inr ⟨v, by simp, by simpa [State.getReg_setReg] using hkeep⟩
      · exact .inl (by simpa [State.getReg_setReg, hq] using hkeep)
    · exact .inr ⟨u, by simp [hmem], hu⟩

/-- Writing one register twice leaves the second value. -/
theorem State.setReg_setReg_same (s : State) (r : Reg) (v w : Word) : (s.setReg r v).setReg r w = s.setReg r w := by
  cases r <;> rfl

/-- Writes to two registers commute (R20). -/
theorem State.setReg_comm (s : State) {r q : Reg} (h : q ≠ r) (v w : Word) :
    (s.setReg r v).setReg q w = (s.setReg q w).setReg r v := by
  cases r <;> cases q <;> simp_all [State.setReg]

/-- A register set before register writes is lost if they write it, and else may be set after them. -/
theorem State.writeAll_setReg (s : State) (r : Reg) (v : Word) (ws : List (Reg × Word)) :
    (s.setReg r v).writeAll ws =
      if r ∈ ws.map (·.1) then s.writeAll ws else (s.writeAll ws).setReg r v := by
  induction ws generalizing s with
  | nil => simp
  | cons w ws ih =>
    obtain ⟨q, u⟩ := w
    by_cases hq : q = r
    · subst hq
      simp [State.setReg_setReg_same]
    · have hne : ¬ r = q := fun h => hq h.symm
      simp [State.setReg_comm s hq, ih, hne]

/-! ### Commit (R105) -/

/-- A commit, field by field: the register writes, the output value, pc and the count; nothing else. -/
theorem State.commit_eq (s : State) (r : Result) :
    s.commit r =
      { s.countStep with
        a := (s.writeAll r.writes).a, b := (s.writeAll r.writes).b, c := (s.writeAll r.writes).c
        out := s.out ++ r.emit.toList, pc := s.nextPc r.next } := by
  obtain ⟨ws, e, n⟩ := r
  have hcommit : s.commit ⟨ws, e, n⟩ =
      { (match e with | none => s.writeAll ws | some d => (s.writeAll ws).emit d) with
        pc := s.nextPc n }.countStep := rfl
  rw [hcommit, State.writeAll_frame]
  cases e with
  | none => simp [State.countStep, State.countNext, State.freeNext, State.countFull]
  | some d => rfl

section CommitFields
variable (s : State) (r : Result)

@[simp] theorem State.commit_prog : (s.commit r).prog = s.prog := by rw [State.commit_eq]; rfl
@[simp] theorem State.commit_len : (s.commit r).len = s.len := by rw [State.commit_eq]; rfl
@[simp] theorem State.commit_aLd : (s.commit r).aLd = s.aLd := by rw [State.commit_eq]; rfl
@[simp] theorem State.commit_bLd : (s.commit r).bLd = s.bLd := by rw [State.commit_eq]; rfl
@[simp] theorem State.commit_cLd : (s.commit r).cLd = s.cLd := by rw [State.commit_eq]; rfl
@[simp] theorem State.commit_pLd : (s.commit r).pLd = s.pLd := by rw [State.commit_eq]; rfl
@[simp] theorem State.commit_cfg : (s.commit r).cfg = s.cfg := by rw [State.commit_eq]; rfl
@[simp] theorem State.commit_runState : (s.commit r).runState = s.runState := by rw [State.commit_eq]; rfl
@[simp] theorem State.commit_cause : (s.commit r).cause = s.cause := by rw [State.commit_eq]; rfl
@[simp] theorem State.commit_faultIp : (s.commit r).faultIp = s.faultIp := by rw [State.commit_eq]; rfl
@[simp] theorem State.commit_faultInsn : (s.commit r).faultInsn = s.faultInsn := by rw [State.commit_eq]; rfl
@[simp] theorem State.commit_stepCount : (s.commit r).stepCount = s.countNext := by rw [State.commit_eq]; rfl
@[simp] theorem State.commit_out : (s.commit r).out = s.out ++ r.emit.toList := by rw [State.commit_eq]
@[simp] theorem State.commit_pc : (s.commit r).pc = s.nextPc r.next := by rw [State.commit_eq]
@[simp] theorem State.commit_allLoaded : (s.commit r).allLoaded = s.allLoaded := by simp [State.allLoaded]

theorem State.getReg_commit_eq (q : Reg) : (s.commit r).getReg q = (s.writeAll r.writes).getReg q := by
  rw [State.commit_eq]; cases q <;> rfl

/-- After a commit a register holds a value the result writes to it, or its old one. -/
theorem State.getReg_commit (q : Reg) :
    (s.commit r).getReg q = s.getReg q ∨ ∃ v, (q, v) ∈ r.writes ∧ (s.commit r).getReg q = v := by
  rw [State.getReg_commit_eq]; exact s.getReg_writeAll r.writes q

end CommitFields

/-- A register set before a commit is lost if the commit writes it, and else may be set after the commit. -/
theorem State.commit_setReg (s : State) (r : Reg) (v : Word) (x : Result) :
    (s.setReg r v).commit x = if r ∈ x.writes.map (·.1) then s.commit x else (s.commit x).setReg r v := by
  have hpc : (s.setReg r v).nextPc x.next = s.nextPc x.next := by cases x.next <;> simp [State.nextPc]
  rw [State.commit_eq, State.commit_eq, State.writeAll_setReg, hpc]
  split <;> cases r <;> rfl

/-! ### Halts and faults leave the registers -/

@[simp] theorem State.getReg_halt (s : State) (r : Reg) : s.halt.getReg r = s.getReg r := by cases r <;> rfl

@[simp] theorem State.getReg_takeFault (s : State) (f : Raised) (r : Reg) :
    (s.takeFault f).getReg r = s.getReg r := by cases r <;> rfl

theorem State.takeFault_setReg (s : State) (r : Reg) (v : Word) (f : Raised) :
    (s.setReg r v).takeFault f = (s.takeFault f).setReg r v := by cases r <;> rfl

@[simp] theorem State.getReg_setLoaded (s : State) (r q : Reg) : (s.setLoaded r).getReg q = s.getReg q := by
  cases r <;> cases q <;> rfl

@[simp] theorem State.getReg_hostLoadProgram (s : State) (ws : List Word3) (r : Reg) :
    (s.hostLoadProgram ws).getReg r = s.getReg r := by cases r <;> rfl

@[simp] theorem State.getReg_launch (s : State) (r : Reg) : s.launch.getReg r = s.getReg r := by cases r <;> rfl

end Sys2Proof.Machine
end

section
/-! PROOFS. exec said once: the value of a combo operand, the fault an instruction raises, the result it commits, and
the equation that puts the three together (R75, R104). -/

namespace Sys2Proof.Machine

/-! ### The operand, the fault and the result of an instruction -/

/-- The value of a combo operand (R75). Code 7 has none; the 0 here stands where `faultOf` answers INVALID_OPERAND. -/
def State.comboValue (s : State) : Combo → Word
  | .lit v => v.setWidth 64
  | .reg r => s.getReg r
  | .reserved => 0

/-- The fault an instruction raises, if it raises one: INVALID_OPERAND beats OUTPUT_OVERFLOW (R80, R171, R208). -/
def State.faultOf (s : State) (i : Instr) : Option Cause :=
  if i.legal = false then some .invalidOperand
  else if i.opcode = 5 ∧ s.outFull = true then some .outputOverflow
  else none

/-- The result of an instruction that raises no fault (R104). -/
def State.result (s : State) : Instr → Result
  | .adv k => .ofWrite .A (shr s.a (s.comboValue k))
  | .bxl l => .ofWrite .B (s.b ^^^ literal l)
  | .bst k => .ofWrite .B (zext64 (low3 (s.comboValue k)))
  | .jnz t => { writes := [], emit := none, next := if s.jumpCondition then .jump (target t) else .advance }
  | .bxc _ => .ofWrite .B (s.b ^^^ s.c)
  | .out k => { writes := [], emit := some (low3 (s.comboValue k)), next := .advance }
  | .bdv k => .ofWrite .B (shr s.a (s.comboValue k))
  | .cdv k => .ofWrite .C (shr s.a (s.comboValue k))

/-- The end of an instruction, as `retire` takes it. -/
def State.outcomeOf (s : State) (i : Instr) : Except Raised Result :=
  match s.faultOf i with
  | some c => .error (s.raised c i)
  | none => .ok (s.result i)

/-! ### The equation of exec -/

theorem State.resolve_of_ne_reserved (s : State) (i : Instr) {k : Combo} (h : k ≠ .reserved) :
    s.resolve i k = .ok (s.comboValue k) := by
  cases k with
  | lit v => rfl
  | reg r => rfl
  | reserved => exact absurd rfl h

/-- An instruction is illegal exactly if its combo operand is code 7 (R80). -/
theorem legal_eq_false_iff (i : Instr) : i.legal = false ↔ i.combo? = some .reserved := by
  simp [Instr.legal]

/-- exec retires `outcomeOf`, whatever the instruction. -/
theorem exec_eq_retire (i : Instr) (s : State) : exec i s = s.retire (s.outcomeOf i) := by
  cases i with
  | adv k => cases k <;> rfl
  | bxl l => rfl
  | bst k => cases k <;> rfl
  | jnz t => rfl
  | bxc w => rfl
  | out k =>
    by_cases hk : k = .reserved
    · subst hk; rfl
    · have hlegal : (Instr.out k).legal = true := by simpa [Instr.legal, Instr.combo?] using hk
      rw [exec, execOut, State.resolve_of_ne_reserved _ _ hk]
      cases hfull : s.outFull <;>
        simp [Except.bind, State.emitResult, State.outcomeOf, State.faultOf, State.result, Instr.opcode, hlegal, hfull]
  | bdv k => cases k <;> rfl
  | cdv k => cases k <;> rfl

/-- An instruction that raises no fault commits its result. -/
theorem exec_of_faultOf_none {s : State} {i : Instr} (h : s.faultOf i = none) :
    exec i s = .next (s.commit (s.result i)) := by
  rw [exec_eq_retire, State.outcomeOf, h]; rfl

/-- An instruction that raises a fault takes it, with its own pc and words. -/
theorem exec_of_faultOf_some {s : State} {i : Instr} {c : Cause} (h : s.faultOf i = some c) :
    exec i s = .next (s.takeFault (s.raised c i)) := by
  rw [exec_eq_retire, State.outcomeOf, h]; rfl

/-- Everything exec can answer: the commit of the result, or the taken fault. -/
theorem exec_cases {i : Instr} {s t : State} (h : exec i s = .next t) :
    (s.faultOf i = none ∧ t = s.commit (s.result i)) ∨
    ∃ c, s.faultOf i = some c ∧ t = s.takeFault (s.raised c i) := by
  cases hf : s.faultOf i with
  | none =>
    rw [exec_of_faultOf_none hf] at h
    cases h
    exact .inl ⟨rfl, rfl⟩
  | some c =>
    rw [exec_of_faultOf_some hf] at h
    cases h
    exact .inr ⟨c, rfl, rfl⟩

/-! ### What a fault says of the instruction -/

theorem State.faultOf_eq_none_iff (s : State) (i : Instr) :
    s.faultOf i = none ↔ i.legal = true ∧ (i.opcode = 5 → s.outFull = false) := by
  unfold State.faultOf
  cases i.legal <;> simp

theorem State.faultOf_eq_some_iff (s : State) (i : Instr) (c : Cause) :
    s.faultOf i = some c ↔
      (i.legal = false ∧ c = .invalidOperand) ∨
      (i.legal = true ∧ i.opcode = 5 ∧ s.outFull = true ∧ c = .outputOverflow) := by
  unfold State.faultOf
  cases i.legal
  · simpa using eq_comm
  · by_cases h : i.opcode = 5 ∧ s.outFull = true
    · rw [if_neg (by simp), if_pos h]
      simpa [h.1, h.2] using eq_comm
    · rw [if_neg (by simp), if_neg h]
      simp only [reduceCtorEq, false_and, true_and, false_or, false_iff]
      exact fun ⟨hop, hfull, _⟩ => h ⟨hop, hfull⟩

/-- The pair that an illegal instruction records is one of R80's five. -/
theorem insnOk_of_illegal {i : Instr} (h : i.legal = false) :
    Cause.insnOk .invalidOperand (pairOf i.opcode i.operand) = true := by
  have hk := (legal_eq_false_iff i).mp h
  cases i <;> simp only [Instr.combo?, Option.some.injEq, reduceCtorEq] at hk <;> subst hk <;> rfl

/-- The pair that an OUTPUT_OVERFLOW records is an out. -/
theorem insnOk_overflow : ∀ w : Word3, Cause.insnOk .outputOverflow (pairOf 5 w) = true := by decide

/-- The fault of an instruction is raised in a step and records the instruction's words as R37 says. -/
theorem State.faultOf_recorded {s : State} {i : Instr} {c : Cause} (h : s.faultOf i = some c) :
    c.inStep = true ∧ c.insnOk (pairOf i.opcode i.operand) = true := by
  rcases (s.faultOf_eq_some_iff i c).mp h with ⟨hl, rfl⟩ | ⟨-, hop, -, rfl⟩
  · exact ⟨rfl, insnOk_of_illegal hl⟩
  · exact ⟨rfl, by rw [hop]; exact insnOk_overflow _⟩

/-- No register has a part in whether an instruction faults. -/
theorem State.faultOf_setReg (s : State) (r : Reg) (v : Word) (i : Instr) :
    (s.setReg r v).faultOf i = s.faultOf i := by
  cases r <;> rfl

/-! ### What a result holds -/

/-- A result writes the registers that R22 lists as written, and no other. -/
theorem State.mem_result_writes (s : State) (i : Instr) (r : Reg) :
    r ∈ (s.result i).writes.map (·.1) ↔ i.writes r = true := by
  cases i <;> simp [State.result, Result.ofWrite, Instr.writes]

/-- Only an out has an output value. -/
theorem State.result_emit_of_ne (s : State) {i : Instr} (h : i.opcode ≠ 5) : (s.result i).emit = none := by
  cases i
  case out k => exact absurd rfl h
  all_goals rfl

/-- An out writes no register. -/
theorem writes_of_out {i : Instr} (h : i.opcode = 5) (r : Reg) : i.writes r = false := by
  cases i
  case out k => rfl
  all_goals exact absurd h (by simp [Instr.opcode])

/-- pc after a result: the operand for a jnz with A not 0, else the next pair (R25). -/
theorem State.nextPc_result (s : State) (i : Instr) :
    s.nextPc (s.result i).next = if i.opcode = 3 ∧ s.a ≠ 0 then i.operand.toNat else s.pc + 2 := by
  cases i with
  | jnz t =>
    cases h : s.jumpCondition
    · have ha : s.a = 0 := by simpa [State.jumpCondition] using h
      simp [State.result, h, State.nextPc, ha]
    · have ha : s.a ≠ 0 := s.jumpCondition_iff.mp h
      simp only [State.result, h, if_true, State.nextPc]
      exact (if_pos ⟨rfl, ha⟩).symm
  | _ => simp [State.result, Result.ofWrite, State.nextPc, Instr.opcode]

theorem State.comboValue_setReg (s : State) {r : Reg} {k : Combo} (v : Word) (h : k ≠ .reg r) :
    (s.setReg r v).comboValue k = s.comboValue k := by
  cases k with
  | lit v => rfl
  | reserved => rfl
  | reg q =>
    have hq : q ≠ r := fun hqr => h (by rw [hqr])
    simp [State.comboValue, State.getReg_setReg, hq]

theorem State.a_setReg (s : State) {r : Reg} (v : Word) (h : r ≠ .A) : (s.setReg r v).a = s.a :=
  (s.getReg_setReg r .A v).trans (if_neg h.symm)

theorem State.b_setReg (s : State) {r : Reg} (v : Word) (h : r ≠ .B) : (s.setReg r v).b = s.b :=
  (s.getReg_setReg r .B v).trans (if_neg h.symm)

theorem State.c_setReg (s : State) {r : Reg} (v : Word) (h : r ≠ .C) : (s.setReg r v).c = s.c :=
  (s.getReg_setReg r .C v).trans (if_neg h.symm)

/-- A result does not depend on a register that R22 does not list as read. -/
theorem State.result_setReg (s : State) {i : Instr} {r : Reg} (v : Word) (h : i.reads r = false) :
    (s.setReg r v).result i = s.result i := by
  cases i <;> simp only [Instr.reads, Bool.or_eq_false_iff, beq_eq_false_iff_ne] at h
  case jnz t =>
    have hjump : (s.setReg r v).jumpCondition = s.jumpCondition := by
      simp only [State.jumpCondition, s.a_setReg v h]
    simp only [State.result, hjump]
  case bxl l => simp only [State.result, s.b_setReg v h]
  case bxc w => simp only [State.result, s.b_setReg v h.1, s.c_setReg v h.2]
  case bst k => simp only [State.result, s.comboValue_setReg v h]
  case out k => simp only [State.result, s.comboValue_setReg v h]
  all_goals simp only [State.result, s.a_setReg v h.1, s.comboValue_setReg v h.2]

end Sys2Proof.Machine
end

section
/-! PROOFS. Decoding facts about the two fetched words, and the step said once over them (R78, R100 to R106). -/

namespace Sys2Proof.Machine

/-! ### The words of a decoded pair -/

/-- A decoded pair keeps its two words (R78). -/
theorem decodePair_words : ∀ op operand : Word3,
    (decodePair op operand).opcode = op ∧ (decodePair op operand).operand = operand := by decide

@[simp] theorem opcode_decodePair (op operand : Word3) : (decodePair op operand).opcode = op :=
  (decodePair_words op operand).1

@[simp] theorem operand_decodePair (op operand : Word3) : (decodePair op operand).operand = operand :=
  (decodePair_words op operand).2

/-! ### The fetch -/

/-- A fetch that answers found a whole pair below LEN (R50, R103). -/
theorem State.fetch_lt_len {s : State} {op operand : Word3} (h : s.fetch = .ok (op, operand)) :
    s.pc + 1 < s.len :=
  ((s.memRead_ok _ _).mp ((s.fetch_ok _ _).mp h).2).1

/-! ### The step -/

/-- What a fault taken in a step records: the pc of the step, a cause that a step can raise, and the pair that R37 asks
for with it. -/
def Raised.InStep (s : State) (f : Raised) : Prop :=
  f.info.ip = s.pc ∧ f.cause.inStep = true ∧ f.cause.insnOk f.info.pair = true

/-- Everything a step that answers a next state can be: the halt, a taken fault, or the commit of the result of the
fetched instruction. -/
theorem step_outcome {s t : State} (h : step s = .next t) :
    s.runState = .running ∧
    (t = s.halt ∨ (∃ f, Raised.InStep s f ∧ t = s.takeFault f) ∨
     ∃ op operand, s.fetch = .ok (op, operand) ∧ s.budgetSpent = false ∧
       s.faultOf (decodePair op operand) = none ∧ t = s.commit (s.result (decodePair op operand))) := by
  obtain ⟨hrun, ⟨-, rfl⟩ | ⟨-, -, rfl⟩ | ⟨-, hbudget, op, operand, hfetch, hexec⟩⟩ := step_cases s t h
  · exact ⟨hrun, .inl rfl⟩
  · exact ⟨hrun, .inr (.inl ⟨_, ⟨rfl, rfl, rfl⟩, rfl⟩)⟩
  · refine ⟨hrun, .inr ?_⟩
    rcases exec_cases hexec with ⟨hnone, rfl⟩ | ⟨c, hsome, rfl⟩
    · exact .inr ⟨op, operand, hfetch, hbudget, hnone, rfl⟩
    · exact .inl ⟨_, ⟨rfl, State.faultOf_recorded hsome⟩, rfl⟩

/-- The step of a RUNNING machine that fetches a pair within its budget is exec of that pair (R103, R104). -/
theorem step_of_fetch {s : State} {op operand : Word3} (hrun : s.runState = .running)
    (hbudget : s.budgetSpent = false) (hfetch : s.fetch = .ok (op, operand)) :
    step s = exec (decodePair op operand) s := by
  have hend : s.atEnd = false := by
    have := State.fetch_lt_len hfetch
    simp only [State.atEnd, decide_eq_false_iff_not]; omega
  simp [step, State.cycle, hrun, State.runStep, hend, hbudget, State.runInstr, hfetch]

/-- With no pair at pc the step of a RUNNING machine is the halt (R101). -/
theorem step_of_atEnd {s : State} (hrun : s.runState = .running) (h : s.len ≤ s.pc + 1) :
    step s = .next s.halt := by
  have hend : s.atEnd = true := s.atEnd_iff.mpr h
  simp [step, State.cycle, hrun, State.runStep, hend]

/-- Outside a run there is no step (R100). -/
theorem step_of_not_running {s : State} (h : s.runState ≠ .running) :
    step s = .refused (.notRunning s.runState) := by
  simp [step, State.cycle, h]

/-- Without a budget none is spent (R102). -/
theorem State.budgetSpent_of_none {s : State} (h : s.cfg.maxSteps = none) : s.budgetSpent = false := by
  simp [State.budgetSpent, h]

/-! ### START -/

/-- START that is not refused launches a loaded program of good length, or takes one of its two faults (R246). -/
theorem State.hostStart_outcome (s : State) :
    s.hostStart = s.launch ∧ s.allLoaded = true ∧ lengthWellFormed s.len = true ∨
    ∃ c, (c = .notLoaded ∨ c = .malformedProgram) ∧ s.hostStart = s.takeFault ⟨c, .atStart⟩ := by
  rcases s.hostStart_cases with ⟨-, h⟩ | ⟨-, -, h⟩ | ⟨hall, hlen, h⟩
  · exact .inr ⟨_, .inl rfl, h⟩
  · exact .inr ⟨_, .inr rfl, h⟩
  · exact .inl ⟨h, hall, hlen⟩

end Sys2Proof.Machine
end

section
/-! PROOFS. The invariant, operation by operation: what ends or continues a run keeps it, and so does what the host
does. -/

namespace Sys2Proof.Machine

/-! ### Steps -/

/-- While RUNNING no fault is recorded (R35, R211). -/
theorem State.Inv.cause_of_running {s : State} (hs : s.Inv) (hrun : s.runState = .running) : s.cause = .noCause := by
  by_contra hne
  have := hs.faulted_iff.mpr hne
  simp [hrun] at this

/-- While RUNNING, FAULT_IP is 0 (R36). -/
theorem State.Inv.faultIp_of_running {s : State} (hs : s.Inv) (hrun : s.runState = .running) : s.faultIp = 0 :=
  hs.ip_ok.2 (by rw [hs.cause_of_running hrun]; rfl)

/-- The halt keeps the invariant. -/
theorem State.Inv.halt {s : State} (hs : s.Inv) (hrun : s.runState = .running) : s.halt.Inv where
  cfg_ok := hs.cfg_ok
  prog_ok := hs.prog_ok
  len_le := hs.len_le
  unloaded := hs.unloaded
  pc_le := hs.pc_le
  pc_run := by simp
  out_le := hs.out_le
  count_le := hs.count_le
  run_ok := by simp
  idle_ok := by simp
  faulted_iff := by simp [hs.cause_of_running hrun]
  cause_ok := hs.cause_ok
  ip_ok := hs.ip_ok
  insn_ok := hs.insn_ok

/-- A taken fault keeps the invariant, if what it records is as R36, R37, R202 and R211 say. -/
theorem State.Inv.takeFault {s : State} (hs : s.Inv) {f : Raised} (hnone : f.cause ≠ .noCause)
    (hknown : f.cause ≠ .unknownOpcode)
    (hip : (f.cause.inStep = true → f.info.ip = s.pc) ∧ (f.cause.inStep = false → f.info.ip = 0))
    (hinsn : f.cause.insnOk f.info.pair = true) : (s.takeFault f).Inv where
  cfg_ok := hs.cfg_ok
  prog_ok := hs.prog_ok
  len_le := hs.len_le
  unloaded := hs.unloaded
  pc_le := hs.pc_le
  pc_run := by simp
  out_le := hs.out_le
  count_le := hs.count_le
  run_ok := by simp
  idle_ok := by simp
  faulted_iff := by simp [hnone]
  cause_ok := hknown
  ip_ok := hip
  insn_ok := hinsn

/-- A fault taken in a step keeps the invariant. -/
theorem State.Inv.takeFault_inStep {s : State} (hs : s.Inv) {f : Raised} (hf : Raised.InStep s f) :
    (s.takeFault f).Inv := by
  obtain ⟨hip, hstep, hinsn⟩ := hf
  have hne : ∀ c : Cause, c.inStep = false → f.cause ≠ c := by
    rintro c hc rfl
    exact absurd hstep (by simp [hc])
  exact hs.takeFault (hne _ rfl) (hne _ rfl) ⟨fun _ => hip, fun h => absurd hstep (by simp [h])⟩ hinsn

/-- A fault of START keeps the invariant. -/
theorem State.Inv.takeFault_atStart {s : State} (hs : s.Inv) {c : Cause} (hc : c = .notLoaded ∨ c = .malformedProgram) :
    (s.takeFault ⟨c, .atStart⟩).Inv := by
  rcases hc with rfl | rfl <;>
    exact hs.takeFault (by simp) (by simp) ⟨fun h => absurd h (by decide), fun _ => rfl⟩ rfl

/-- pc after a result stays at or below LEN, or below 8 (R27). -/
theorem State.nextPc_result_le {s : State} {i : Instr} (h : s.pc + 1 < s.len) :
    s.nextPc (s.result i).next ≤ max s.len 7 := by
  rw [s.nextPc_result]
  have hword := i.operand.isLt
  split <;> omega

/-- An instruction that raises no fault keeps OUT within its depth (R31, R171). -/
theorem State.out_result_le {s : State} {i : Instr} {d : Nat} (hfault : s.faultOf i = none)
    (hdepth : s.cfg.outDepth = some d) (hout : s.out.length ≤ d) :
    (s.out ++ (s.result i).emit.toList).length ≤ d := by
  by_cases hop : i.opcode = 5
  · have hfull : s.outFull = false := ((s.faultOf_eq_none_iff i).mp hfault).2 hop
    have hne : s.out.length ≠ d := by
      rintro rfl
      simp [s.outFull_iff.mpr hdepth] at hfull
    have hone : (s.result i).emit.toList.length ≤ 1 := by cases (s.result i).emit <;> simp
    rw [List.length_append]; omega
  · simpa [s.result_emit_of_ne hop] using hout

/-- A completed instruction stays within a budget below 2^64 that was not spent (R204). -/
theorem State.countNext_le {s : State} {n : Nat} (hmax : s.cfg.maxSteps = some n) (hn : n < 2 ^ 64)
    (hcount : s.stepCount.toNat ≤ n) (hbudget : s.budgetSpent = false) : s.countNext.toNat ≤ n := by
  have hne : s.stepCount.toNat ≠ n := by
    rintro rfl
    simp [s.budgetSpent_iff.mpr hmax] at hbudget
  obtain ⟨-, hnext, -⟩ := s.countNext_of_lt (by omega)
  omega

/-- The commit of a fetched instruction keeps the invariant. -/
theorem State.Inv.commit {s : State} (hs : s.Inv) (hrun : s.runState = .running) (hbudget : s.budgetSpent = false)
    {i : Instr} (hpc : s.pc + 1 < s.len) (hfault : s.faultOf i = none) : (s.commit (s.result i)).Inv where
  cfg_ok := by simpa using hs.cfg_ok
  prog_ok := by simpa using hs.prog_ok
  len_le := by simpa using hs.len_le
  unloaded := by simpa using hs.unloaded
  pc_le := by
    have hle := State.nextPc_result_le (i := i) hpc
    have hlen := hs.len_le
    rw [State.commit_pc, State.commit_cfg]; omega
  pc_run := fun _ => by
    rw [State.commit_pc, State.commit_len]; exact State.nextPc_result_le hpc
  out_le := fun d hd => by
    rw [State.commit_cfg] at hd
    rw [State.commit_out]; exact State.out_result_le hfault hd (hs.out_le d hd)
  count_le := fun n hmax hn => by
    rw [State.commit_cfg] at hmax
    rw [State.commit_stepCount]; exact State.countNext_le hmax hn (hs.count_le n hmax hn) hbudget
  run_ok := by simpa using hs.run_ok
  idle_ok := by simp [hrun]
  faulted_iff := by simpa using hs.faulted_iff
  cause_ok := by simpa using hs.cause_ok
  ip_ok := by simp [hs.cause_of_running hrun, hs.faultIp_of_running hrun, Cause.inStep, Cause.ofInsn]
  insn_ok := by simpa using hs.insn_ok

/-- Every step keeps the invariant. -/
theorem State.Inv.step {s t : State} (hs : s.Inv) (h : step s = .next t) : t.Inv := by
  obtain ⟨hrun, rfl | ⟨f, hf, rfl⟩ | ⟨op, operand, hfetch, hbudget, hfault, rfl⟩⟩ := step_outcome h
  · exact hs.halt hrun
  · exact hs.takeFault_inStep hf
  · exact hs.commit hrun hbudget (State.fetch_lt_len hfetch) hfault

/-! ### Power-on and the host -/

/-- The state of power-on keeps the invariant, whatever the model's count of free values. -/
theorem inv_resetWith {cfg : Config} (h : cfg.wellFormed = true) (n : Nat) :
    ({ State.resetWith cfg with freeIdx := n } : State).Inv where
  cfg_ok := h
  prog_ok := rfl
  len_le := Nat.zero_le _
  unloaded := fun _ => rfl
  pc_le := Nat.zero_le _
  pc_run := fun _ => Nat.zero_le _
  out_le := fun _ _ => Nat.zero_le _
  count_le := fun _ _ _ => Nat.zero_le _
  run_ok := fun hrun => absurd hrun (by simp [State.resetWith])
  idle_ok := fun _ => ⟨rfl, rfl, rfl⟩
  faulted_iff := by simp [State.resetWith]
  cause_ok := by simp [State.resetWith]
  ip_ok := ⟨fun _ => rfl, fun _ => rfl⟩
  insn_ok := rfl

/-- An accepted WRITE_REG keeps the invariant. -/
theorem State.Inv.hostWriteReg {s : State} (hs : s.Inv) (hrun : s.runState ≠ .running) (r : Reg) (v : Word) :
    (s.hostWriteReg r v).Inv where
  cfg_ok := by simpa [State.hostWriteReg] using hs.cfg_ok
  prog_ok := by simpa [State.hostWriteReg] using hs.prog_ok
  len_le := by simpa [State.hostWriteReg] using hs.len_le
  unloaded := by simpa [State.hostWriteReg] using hs.unloaded
  pc_le := by simpa [State.hostWriteReg] using hs.pc_le
  pc_run := by simpa [State.hostWriteReg] using hs.pc_run
  out_le := by simpa [State.hostWriteReg] using hs.out_le
  count_le := by simpa [State.hostWriteReg] using hs.count_le
  run_ok := by simp [State.hostWriteReg, hrun]
  idle_ok := by simpa [State.hostWriteReg] using hs.idle_ok
  faulted_iff := by simpa [State.hostWriteReg] using hs.faulted_iff
  cause_ok := by simpa [State.hostWriteReg] using hs.cause_ok
  ip_ok := by simpa [State.hostWriteReg] using hs.ip_ok
  insn_ok := by simpa [State.hostWriteReg] using hs.insn_ok

/-- An accepted LOAD_PROGRAM keeps the invariant. -/
theorem State.Inv.hostLoadProgram {s : State} (hs : s.Inv) (hrun : s.runState ≠ .running) {ws : List Word3}
    (hlen : ws.length ≤ s.cfg.progMaxLen) : (s.hostLoadProgram ws).Inv where
  cfg_ok := hs.cfg_ok
  prog_ok := (Memory.indexes_ofWordsFrom 0 ws).trans List.range_eq_range'.symm
  len_le := hlen
  unloaded := by simp
  pc_le := hs.pc_le
  pc_run := fun h => absurd h hrun
  out_le := hs.out_le
  count_le := hs.count_le
  run_ok := fun h => absurd h hrun
  idle_ok := hs.idle_ok
  faulted_iff := hs.faulted_iff
  cause_ok := hs.cause_ok
  ip_ok := hs.ip_ok
  insn_ok := hs.insn_ok

/-- The launch of a loaded program of good length keeps the invariant. -/
theorem State.Inv.launch {s : State} (hs : s.Inv) (hall : s.allLoaded = true) (hlen : lengthWellFormed s.len = true) :
    s.launch.Inv where
  cfg_ok := hs.cfg_ok
  prog_ok := hs.prog_ok
  len_le := hs.len_le
  unloaded := hs.unloaded
  pc_le := Nat.zero_le _
  pc_run := fun _ => Nat.zero_le _
  out_le := fun _ _ => Nat.zero_le _
  count_le := fun _ _ _ => Nat.zero_le _
  run_ok := fun _ => ⟨hall, hlen⟩
  idle_ok := by simp
  faulted_iff := by simp
  cause_ok := by simp
  ip_ok := by simp [Cause.inStep, Cause.ofInsn]
  insn_ok := rfl

/-- Every transaction keeps the invariant. -/
theorem State.Inv.transact {s : State} (hs : s.Inv) (x : Transaction) : (s.transact x).1.Inv := by
  rcases s.transact_cases x with h | ⟨rfl, h⟩ |
    ⟨hrun, -, ⟨r, v, rfl, h⟩ | ⟨ws, rfl, hlen, h⟩ | ⟨rfl, h⟩⟩ <;> rw [h]
  · exact hs
  · exact inv_resetWith hs.cfg_ok s.freeIdx
  · exact hs.hostWriteReg hrun r v
  · exact hs.hostLoadProgram hrun hlen
  · rcases s.hostStart_outcome with ⟨h, hall, hlen⟩ | ⟨c, hc, h⟩ <;> rw [h]
    · exact hs.launch hall hlen
    · exact hs.takeFault_atStart hc

/-- The event of a step happens exactly if the step answers a next state. -/
theorem State.after_step_eq_some_iff (s t : State) : s.after .step = some t ↔ Machine.step s = .next t := by
  unfold State.after
  cases Machine.step s <;> simp

/-- Every reachable state keeps the invariant: power-on has it, and every event keeps it. -/
theorem State.Reachable.inv {s : State} (h : s.Reachable) : s.Inv := by
  induction h with
  | power cfg hcfg => exact inv_resetWith hcfg 0
  | event s t e _ he ih =>
    cases e with
    | step => exact ih.step ((s.after_step_eq_some_iff t).mp he)
    | transaction x =>
      obtain rfl : (s.transact x).1 = t := Option.some.inj he
      exact ih.transact x

end Sys2Proof.Machine
end

section
/-! PROOFS. The 64-bit machine against the source's machine with unbounded registers (R21, C1): the program seen as
numbers, one instruction, one step, and then any number of steps. -/

namespace Sys2Proof.Machine

/-! ### The program as a list of words (R50) -/

/-- A store whose indexes are consecutive is the load of its words. -/
theorem Memory.eq_ofWordsFrom {m : Memory} {base n : Nat} (h : m.map (·.1) = List.range' base n) :
    m = Memory.ofWordsFrom base (m.map (·.2)) := by
  induction m generalizing base n with
  | nil => rfl
  | cons p m ih =>
    obtain ⟨j, w⟩ := p
    cases n with
    | zero => simp at h
    | succ n =>
      simp only [List.map_cons, List.range'_succ, List.cons.injEq] at h
      obtain ⟨rfl, htail⟩ := h
      simp only [List.map_cons, Memory.ofWordsFrom]
      rw [← ih htail]

/-- Under the invariant a read of the store is a look-up in the list of its words. -/
theorem State.Inv.read_prog {s : State} (hs : s.Inv) (i : Nat) :
    Memory.read s.prog i = (s.prog.map (·.2))[i]? := by
  have hstore := Memory.eq_ofWordsFrom (hs.prog_ok.trans List.range_eq_range')
  conv_lhs => rw [hstore, Memory.read_ofWordsFrom, if_pos (Nat.zero_le i), Nat.sub_zero]

/-- Under the invariant LEN is the number of words in the store. -/
theorem State.Inv.length_prog {s : State} (hs : s.Inv) : s.prog.length = s.len := by
  simpa using congrArg List.length hs.prog_ok

/-- Below LEN the store holds a word (R50), the one that `words` lists as a number. -/
theorem State.Inv.memRead_of_lt {s : State} (hs : s.Inv) {i : Nat} (h : i < s.len) :
    ∃ w, s.memRead i = .ok w ∧ s.words.getD i 0 = w.toNat := by
  have hi : i < s.prog.length := by rw [hs.length_prog]; exact h
  refine ⟨s.prog[i].2, (s.memRead_ok _ _).mpr ⟨h, ?_⟩, ?_⟩
  · rw [hs.read_prog]; simp [hi]
  · simp [State.words, hi]

/-- Under the invariant the fetch of a whole pair answers the two words that `words` lists there (R103). -/
theorem State.Inv.fetch_of_lt {s : State} (hs : s.Inv) (h : s.pc + 1 < s.len) :
    ∃ op operand, s.fetch = .ok (op, operand) ∧
      s.words.getD s.pc 0 = op.toNat ∧ s.words.getD (s.pc + 1) 0 = operand.toNat := by
  obtain ⟨op, hop, hopNat⟩ := hs.memRead_of_lt (i := s.pc) (by omega)
  obtain ⟨operand, hoperand, hoperandNat⟩ := hs.memRead_of_lt h
  exact ⟨op, operand, (s.fetch_ok _ _).mpr ⟨hop, hoperand⟩, hopNat, hoperandNat⟩

/-! ### The arithmetic as numbers -/

/-- The shift is floor division, for every count (R120). -/
theorem toNat_shr (a n : Word) : (shr a n).toNat = a.toNat / 2 ^ n.toNat := by
  unfold shr
  split
  · rw [BitVec.toNat_ushiftRight, Nat.shiftRight_eq_div_pow]
  · have hle : 2 ^ 64 ≤ 2 ^ n.toNat := Nat.pow_le_pow_right (by decide) (by omega)
    exact (Nat.div_eq_of_lt (lt_of_lt_of_le a.isLt hle)).symm

theorem toNat_low3 (v : Word) : (low3 v).toNat = v.toNat % 8 := BitVec.toNat_setWidth 3 v

theorem toNat_zext64 (w : Word3) : (zext64 w).toNat = w.toNat :=
  BitVec.toNat_setWidth_of_le (by decide)

/-- The eight words (R70). -/
theorem word3_cases : ∀ w : Word3, w = 0 ∨ w = 1 ∨ w = 2 ∨ w = 3 ∨ w = 4 ∨ w = 5 ∨ w = 6 ∨ w = 7 := by decide

/-! ### The block as the source sees it -/

theorem State.unbounded_takeFault (s : State) (f : Raised) :
    (s.takeFault f).unbounded = { s.unbounded with runState := .faulted } := rfl

theorem State.unbounded_halt (s : State) : s.halt.unbounded = { s.unbounded with runState := .halted } := rfl

theorem State.unbounded_commit (s : State) (r : Result) :
    (s.commit r).unbounded =
      { s.unbounded with
        a := (s.writeAll r.writes).a.toNat, b := (s.writeAll r.writes).b.toNat, c := (s.writeAll r.writes).c.toNat
        out := s.unbounded.out ++ r.emit.toList.map BitVec.toNat, pc := s.nextPc r.next } := by
  rw [State.commit_eq]
  simp [State.unbounded]

/-- The source resolves a combo code as the block does, and fails on code 7 as the block does (R75). -/
theorem State.unbounded_combo (s : State) (w : Word3) :
    s.unbounded.combo w.toNat =
      if Combo.ofCode w = .reserved then none else some (s.comboValue (Combo.ofCode w)).toNat := by
  rcases word3_cases w with rfl | rfl | rfl | rfl | rfl | rfl | rfl | rfl <;> rfl

theorem State.unbounded_withCombo (s : State) {w : Word3} (h : Combo.ofCode w ≠ .reserved) (f : Nat → Unbounded) :
    s.unbounded.withCombo w.toNat f = f (s.comboValue (Combo.ofCode w)).toNat := by
  simp [Unbounded.withCombo, State.unbounded_combo, h]

theorem State.unbounded_withCombo_reserved (s : State) {w : Word3} (h : Combo.ofCode w = .reserved)
    (f : Nat → Unbounded) :
    s.unbounded.withCombo w.toNat f = { s.unbounded with runState := .faulted } := by
  simp [Unbounded.withCombo, State.unbounded_combo, h]

/-! ### One instruction -/

/-- The source's instruction is the block's, where the block completes it. -/
theorem State.unbounded_execute_of_none {s : State} {op operand : Word3}
    (h : s.faultOf (decodePair op operand) = none) :
    s.unbounded.execute op.toNat operand.toNat = (s.commit (s.result (decodePair op operand))).unbounded := by
  obtain ⟨hlegal, -⟩ := (s.faultOf_eq_none_iff _).mp h
  have hcombo : ∀ k, (decodePair op operand).combo? = some k → k ≠ .reserved := by
    rintro k hk rfl
    simp [(legal_eq_false_iff _).mpr hk] at hlegal
  rw [State.unbounded_commit, State.nextPc_result, opcode_decodePair, operand_decodePair]
  rcases word3_cases op with rfl | rfl | rfl | rfl | rfl | rfl | rfl | rfl
  case inr.inl =>
    simp [decodePair, Unbounded.execute, State.result, Result.ofWrite, State.unbounded, literal, toNat_zext64]
  case inr.inr.inr.inl =>
    have hzero : s.a.toNat = 0 ↔ s.a = 0 := (BitVec.toNat_eq (x := s.a) (y := 0)).symm
    by_cases ha : s.a = 0 <;> simp [decodePair, Unbounded.execute, State.result, State.unbounded, hzero, ha]
  case inr.inr.inr.inr.inl =>
    simp [decodePair, Unbounded.execute, State.result, Result.ofWrite, State.unbounded]
  all_goals
    refine (s.unbounded_withCombo (hcombo _ rfl) _).trans ?_
    simp [decodePair, State.result, Result.ofWrite, toNat_shr, toNat_zext64, toNat_low3, State.unbounded]

/-- The source's instruction ends in an error where the block takes INVALID_OPERAND. -/
theorem State.unbounded_execute_of_illegal {s : State} {op operand : Word3}
    (h : (decodePair op operand).legal = false) :
    s.unbounded.execute op.toNat operand.toNat = { s.unbounded with runState := .faulted } := by
  have hcombo := (legal_eq_false_iff _).mp h
  rcases word3_cases op with rfl | rfl | rfl | rfl | rfl | rfl | rfl | rfl
  case inr.inl => cases hcombo
  case inr.inr.inr.inl => cases hcombo
  case inr.inr.inr.inr.inl => cases hcombo
  all_goals exact s.unbounded_withCombo_reserved (Option.some.inj hcombo) _

/-- One instruction of the block with unbounded output, and the source's on the same words. -/
theorem State.exec_unbounded {s : State} (hout : s.cfg.outDepth = none) (op operand : Word3) :
    ∃ t, exec (decodePair op operand) s = .next t ∧ s.unbounded.execute op.toNat operand.toNat = t.unbounded := by
  cases hf : s.faultOf (decodePair op operand) with
  | none => exact ⟨_, exec_of_faultOf_none hf, State.unbounded_execute_of_none hf⟩
  | some c =>
    refine ⟨_, exec_of_faultOf_some hf, ?_⟩
    rcases (s.faultOf_eq_some_iff _ _).mp hf with ⟨hlegal, -⟩ | ⟨-, -, hfull, -⟩
    · rw [State.unbounded_execute_of_illegal hlegal, State.unbounded_takeFault]
    · simp [s.outFull_iff, hout] at hfull

/-! ### One step, and a run -/

/-- No step changes the program or the parameters (R51). -/
theorem step_prog_cfg {s t : State} (h : step s = .next t) : t.prog = s.prog ∧ t.cfg = s.cfg := by
  obtain ⟨-, rfl | ⟨f, -, rfl⟩ | ⟨op, operand, -, -, -, rfl⟩⟩ := step_outcome h <;> simp

/-- A RUNNING block without a budget and the source's machine take the same step. -/
theorem State.Inv.step_unbounded {s : State} (hs : s.Inv) (hrun : s.runState = .running)
    (hmax : s.cfg.maxSteps = none) (hout : s.cfg.outDepth = none) :
    ∃ t, Machine.step s = .next t ∧ s.unbounded.step s.words = some t.unbounded := by
  have hlen : s.words.length = s.len := by rw [State.words, List.length_map, hs.length_prog]
  have hrun' : s.unbounded.runState = .running := hrun
  by_cases hend : s.len ≤ s.pc + 1
  · have hend' : s.words.length ≤ s.unbounded.pc + 1 := by rw [hlen]; exact hend
    exact ⟨_, step_of_atEnd hrun hend, by rw [Unbounded.step, if_pos hrun', if_pos hend', State.unbounded_halt]⟩
  · have hend' : ¬ s.words.length ≤ s.unbounded.pc + 1 := by rw [hlen]; exact hend
    obtain ⟨op, operand, hfetch, hop, hoperand⟩ := hs.fetch_of_lt (Nat.lt_of_not_le hend)
    obtain ⟨t, hexec, hsource⟩ := State.exec_unbounded hout op operand
    refine ⟨t, (step_of_fetch hrun (State.budgetSpent_of_none hmax) hfetch).trans hexec, ?_⟩
    rw [Unbounded.step, if_pos hrun', if_neg hend', ← hsource, ← hop, ← hoperand]
    rfl

/-- The first of k + 1 steps is a step of the block. -/
theorem State.steps_succ (k : Nat) (s : State) : s.steps (k + 1) = (s.after .step).bind (State.steps k) := by
  simp only [State.steps, State.after]
  cases step s <;> rfl

/-- Settles O28, by induction on the number of steps: a simulation in which the invariant gives each fetch its words. -/
theorem unboundedRegistersAgree : Obligations.UnboundedRegistersAgree := by
  intro k
  induction k with
  | zero => intros; rfl
  | succ k ih =>
    intro s hs hmax hout
    rw [State.steps_succ, Unbounded.run]
    by_cases hrun : s.runState = .running
    · obtain ⟨t, hstep, hsource⟩ := hs.step_unbounded hrun hmax hout
      obtain ⟨hprog, hcfg⟩ := step_prog_cfg hstep
      have hwords : t.words = s.words := by rw [State.words, hprog, State.words]
      rw [hsource, (s.after_step_eq_some_iff t).mpr hstep, Option.bind_some, Option.bind_some, ← hwords]
      exact ih t (hs.step hstep) (by rw [hcfg, hmax]) (by rw [hcfg, hout])
    · have hsource : s.unbounded.step s.words = none := if_neg hrun
      have hblock : s.after .step = none := by simp [State.after, step_of_not_running hrun]
      rw [hsource, hblock]; rfl

/-- Settles O31: the invariant, operation by operation. -/
theorem stepKeepsInvariant : Obligations.StepKeepsInvariant := fun _ _ hs h => hs.step h

end Sys2Proof.Machine
end

section
/-! PROOFS. What a step, an instruction and a transaction do to each part of the state: registers, STEP_COUNT, pc and
OUT (R22, R25, R30, R38). -/

namespace Sys2Proof.Machine

/-! ### Registers (R21, R22) -/

/-- A completed instruction keeps every register that R22 does not list as written. -/
theorem State.getReg_commit_result (s : State) {i : Instr} {r : Reg} (h : i.writes r = false) :
    (s.commit (s.result i)).getReg r = s.getReg r := by
  rcases s.getReg_commit (s.result i) r with hkeep | ⟨v, hmem, -⟩
  · exact hkeep
  · have hwrites := (s.mem_result_writes i r).mp (List.mem_map_of_mem hmem)
    simp [h] at hwrites

/-- An instruction keeps every register that R22 does not list as written, whether it completes or faults. -/
theorem exec_getReg {i : Instr} {s t : State} {r : Reg} (h : exec i s = .next t) (hw : i.writes r = false) :
    t.getReg r = s.getReg r := by
  rcases exec_cases h with ⟨-, rfl⟩ | ⟨c, -, rfl⟩
  · exact s.getReg_commit_result hw
  · exact s.getReg_takeFault _ r

/-- Settles O13: a commit and a taken fault, field by field. -/
theorem execFrame : Obligations.ExecFrame := by
  intro i s t h
  refine ⟨fun r hr => exec_getReg h hr, ?_⟩
  rcases exec_cases h with ⟨-, rfl⟩ | ⟨c, -, rfl⟩
  · have hout : (∀ k, i ≠ .out k) → (s.commit (s.result i)).out = s.out := by
      intro hne
      have hop : i.opcode ≠ 5 := by
        cases i with
        | out k => exact absurd rfl (hne k)
        | _ => simp [Instr.opcode]
      simp [s.result_emit_of_ne hop]
    simpa using hout
  · simp

/-- Setting a register that the instruction does not read, before it, changes nothing that it answers but that
register, and not even that if the instruction completes and writes it (R22). -/
theorem exec_setReg {i : Instr} {r : Reg} (s : State) (v : Word) (hr : i.reads r = false) :
    ∃ t, exec i s = .next t ∧
      exec i (s.setReg r v) = .next (if i.writes r && i.legal then t else t.setReg r v) := by
  cases hf : s.faultOf i with
  | none =>
    have hf' : (s.setReg r v).faultOf i = none := by rw [State.faultOf_setReg, hf]
    have hlegal : i.legal = true := ((s.faultOf_eq_none_iff i).mp hf).1
    refine ⟨_, exec_of_faultOf_none hf, ?_⟩
    rw [exec_of_faultOf_none hf', s.result_setReg v hr, State.commit_setReg]
    simp only [s.mem_result_writes, hlegal, Bool.and_true]
  | some c =>
    have hf' : (s.setReg r v).faultOf i = some c := by rw [State.faultOf_setReg, hf]
    have hkeep : (i.writes r && i.legal) = false := by
      rcases (s.faultOf_eq_some_iff i c).mp hf with ⟨hlegal, -⟩ | ⟨-, hop, -, -⟩
      · simp [hlegal]
      · simp [writes_of_out hop]
    have hraised : (s.setReg r v).raised c i = s.raised c i := by simp [State.raised]
    refine ⟨_, exec_of_faultOf_some hf, ?_⟩
    rw [exec_of_faultOf_some hf', hraised, State.takeFault_setReg, hkeep]
    rfl

/-- A step changes a register only by an instruction that R22 lists as writing it. -/
theorem step_getReg_ne {s t : State} {r : Reg} (h : step s = .next t) (hne : t.getReg r ≠ s.getReg r) :
    ∃ op operand, s.fetch = .ok (op, operand) ∧ (decodePair op operand).writes r = true := by
  obtain ⟨-, rfl | ⟨f, -, rfl⟩ | ⟨op, operand, hfetch, -, -, rfl⟩⟩ := step_outcome h
  · exact absurd (s.getReg_halt r) hne
  · exact absurd (s.getReg_takeFault f r) hne
  · refine ⟨op, operand, hfetch, ?_⟩
    by_contra hw
    exact hne (s.getReg_commit_result (Bool.eq_false_of_not_eq_true hw))

/-- A transaction changes a register only by a RESET or a WRITE_REG (R22). -/
theorem State.transact_getReg_ne {s : State} {x : Transaction} {r : Reg}
    (hne : (s.transact x).1.getReg r ≠ s.getReg r) : x = .reset ∨ ∃ v, x = .writeReg r v := by
  rcases s.transact_cases x with h | ⟨rfl, -⟩ | ⟨-, -, ⟨q, v, rfl, h⟩ | ⟨ws, rfl, -, h⟩ | ⟨rfl, h⟩⟩
  · exact absurd (by rw [h]) hne
  · exact .inl rfl
  · by_cases hq : r = q
    · exact .inr ⟨v, by rw [hq]⟩
    · exact absurd (by rw [h, State.hostWriteReg, State.getReg_setLoaded, State.getReg_setReg, if_neg hq]) hne
  · exact absurd (by rw [h, State.getReg_hostLoadProgram]) hne
  · refine absurd ?_ hne
    rw [h]
    rcases s.hostStart_outcome with ⟨h, -, -⟩ | ⟨c, -, h⟩ <;> rw [h]
    · exact s.getReg_launch r
    · exact s.getReg_takeFault _ r

/-- Settles O14, a clause from each of the four lemmas above. -/
theorem registerReadWriteTable : Obligations.RegisterReadWriteTable :=
  ⟨fun _ s _ v hr => exec_setReg s v hr, fun _ _ _ _ h hw => exec_getReg h hw,
    fun _ _ _ h hne => step_getReg_ne h hne, fun _ _ _ hne => State.transact_getReg_ne hne⟩

/-- If every register fits in m bits, m at least 3, so does every value that a result writes: a shift and a reduction
only shrink, and XOR sets no bit that both operands lack (R21, C2). -/
theorem State.result_writes_lt {s : State} {m : Nat} (hm : 3 ≤ m) (hs : ∀ r, (s.getReg r).toNat < 2 ^ m) {i : Instr}
    {r : Reg} {v : Word} (h : (r, v) ∈ (s.result i).writes) : v.toNat < 2 ^ m := by
  have height : 8 ≤ 2 ^ m := Nat.pow_le_pow_right (n := 2) (by decide) hm
  have hshift : ∀ n, (shr s.a n).toNat < 2 ^ m := fun n => by
    rw [toNat_shr]
    exact lt_of_le_of_lt (Nat.div_le_self _ _) (hs .A)
  have hword : ∀ w : Word3, (zext64 w).toNat < 2 ^ m := fun w => by
    rw [toNat_zext64]
    exact lt_of_lt_of_le w.isLt height
  have hxor : ∀ w : Word, w.toNat < 2 ^ m → (s.b ^^^ w).toNat < 2 ^ m := fun w hw => by
    rw [BitVec.toNat_xor]
    exact Nat.xor_lt_two_pow (hs .B) hw
  cases i <;> simp only [State.result, Result.ofWrite, List.mem_singleton, List.not_mem_nil, Prod.mk.injEq] at h
  case bxl l => rw [h.2]; exact hxor _ (hword l)
  case bst k => rw [h.2]; exact hword _
  case bxc w => rw [h.2]; exact hxor _ (hs .C)
  all_goals rw [h.2]; exact hshift _

/-- Settles O25: a register after a step is an old one or a value that a result writes. -/
theorem registersNeverOutgrowInputs : Obligations.RegistersNeverOutgrowInputs := by
  intro s t m hm hs h r
  obtain ⟨-, rfl | ⟨f, -, rfl⟩ | ⟨op, operand, -, -, -, rfl⟩⟩ := step_outcome h
  · rw [State.getReg_halt]; exact hs r
  · rw [State.getReg_takeFault]; exact hs r
  · rcases s.getReg_commit (s.result (decodePair op operand)) r with hkeep | ⟨v, hmem, hv⟩
    · rw [hkeep]; exact hs r
    · rw [hv]; exact State.result_writes_lt hm hs hmem

/-! ### STEP_COUNT, pc and OUT (R25, R30, R38) -/

/-- A START that is accepted has the effect of `hostStart` (R246). -/
theorem State.transact_start_accepted {s t : State} (h : s.transact .start = (t, .accepted)) : t = s.hostStart := by
  by_cases hrun : s.runState = .running
  · simp [State.transact, hrun] at h
  · simpa [State.transact, hrun, eq_comm] using h

/-- Settles O21: by the cases of a step, and of START. -/
theorem stepCountCountsInstructions : Obligations.StepCountCountsInstructions := by
  refine ⟨fun s t h => ?_, fun s t h hrun => ?_, fun s => s.hostReset_stepCount⟩
  · obtain ⟨hrun, rfl | ⟨f, -, rfl⟩ | ⟨op, operand, -, -, -, rfl⟩⟩ := step_outcome h
    · simp
    · simp
    · refine ⟨fun _ hlt => ?_, fun hne => absurd hrun (by simpa using hne)⟩
      rw [State.commit_stepCount]; exact (s.countNext_of_lt hlt).2.1
  · rw [State.transact_start_accepted h] at hrun ⊢
    rcases s.hostStart_outcome with ⟨hlaunch, -, -⟩ | ⟨c, -, hfault⟩
    · rw [hlaunch]; rfl
    · simp [hfault] at hrun

/-- Of the transactions other than RESET only a START that begins a run changes pc (R25). -/
theorem State.transact_pc_ne {s : State} {x : Transaction} (hx : x ≠ .reset) (hne : (s.transact x).1.pc ≠ s.pc) :
    x = .start ∧ (s.transact x).1.runState = .running ∧ (s.transact x).1.pc = 0 := by
  rcases s.transact_cases x with h | ⟨rfl, -⟩ | ⟨-, -, ⟨r, v, rfl, h⟩ | ⟨ws, rfl, -, h⟩ | ⟨rfl, h⟩⟩
  · exact absurd (by rw [h]) hne
  · exact absurd rfl hx
  · exact absurd (by rw [h, State.hostWriteReg, State.setLoaded_pc, State.setReg_pc]) hne
  · exact absurd (by rw [h, State.hostLoadProgram_pc]) hne
  · rw [h] at hne ⊢
    rcases s.hostStart_outcome with ⟨hlaunch, -, -⟩ | ⟨c, -, hfault⟩
    · rw [hlaunch]; exact ⟨rfl, rfl, rfl⟩
    · exact absurd (by rw [hfault, State.takeFault_pc]) hne

/-- Settles O22: by the cases of a step, and of a transaction. -/
theorem pcChangesOnlyAsStated : Obligations.PcChangesOnlyAsStated := by
  refine ⟨fun s t h => ?_, fun s x hx hne => State.transact_pc_ne hx hne, fun s => s.hostReset_pc⟩
  obtain ⟨hrun, rfl | ⟨f, -, rfl⟩ | ⟨op, operand, hfetch, -, -, rfl⟩⟩ := step_outcome h
  · simp
  · simp
  · refine ⟨fun hne => absurd hrun (by simpa using hne), fun _ => ⟨op, operand, hfetch, ?_⟩⟩
    rw [State.commit_pc, State.nextPc_result, opcode_decodePair, operand_decodePair]

/-- Settles O23: only a result with an output value changes OUT, and only an out has one. -/
theorem outputOnlyGrowsByOut : Obligations.OutputOnlyGrowsByOut := by
  intro s t h
  obtain ⟨-, rfl | ⟨f, -, rfl⟩ | ⟨op, operand, hfetch, -, -, rfl⟩⟩ := step_outcome h
  · exact .inl rfl
  · exact .inl rfl
  · cases hemit : (s.result (decodePair op operand)).emit with
    | none => exact .inl (by simp [hemit])
    | some d =>
      have hop : op = 5 := by
        by_contra hne
        have hnone := s.result_emit_of_ne (i := decodePair op operand) (by rwa [opcode_decodePair])
        simp [hnone] at hemit
      have hout : (s.commit (s.result (decodePair op operand))).out = s.out ++ [d] := by simp [hemit]
      exact .inr ⟨d, operand, hout, by simp only [State.outData, hout, List.getLast?_concat],
        by simp only [State.outCount, hout, List.length_append, List.length_singleton], by rw [hfetch, hop]⟩

end Sys2Proof.Machine
end

section
/-! PROOFS. What a run depends on: states that agree on what is visible take the same steps, if there is no budget
(R40, R107). -/

namespace Sys2Proof.Machine

theorem State.visible_eq_iff (s t : State) :
    s.visible = t.visible ↔
      s.a = t.a ∧ s.b = t.b ∧ s.c = t.c ∧ s.pc = t.pc ∧ s.out = t.out ∧ s.runState = t.runState ∧ s.prog = t.prog ∧
        s.len = t.len ∧ s.cfg = t.cfg := by
  simp [State.visible]

section Congruences
variable {s t : State} (h : s.visible = t.visible)
include h

theorem State.cfg_congr : s.cfg = t.cfg := by
  obtain ⟨-, -, -, -, -, -, -, -, hcfg⟩ := (s.visible_eq_iff t).mp h
  exact hcfg

theorem State.runState_congr : s.runState = t.runState := by
  obtain ⟨-, -, -, -, -, hrun, -⟩ := (s.visible_eq_iff t).mp h
  exact hrun

theorem State.getReg_congr (r : Reg) : s.getReg r = t.getReg r := by
  obtain ⟨ha, hb, hc, -⟩ := (s.visible_eq_iff t).mp h
  cases r <;> assumption

theorem State.halt_visible_congr : s.halt.visible = t.halt.visible := by
  simp_all [State.visible_eq_iff]

theorem State.takeFault_visible_congr (f g : Raised) : (s.takeFault f).visible = (t.takeFault g).visible := by
  simp_all [State.visible_eq_iff]

theorem State.setReg_visible_congr (r : Reg) (v : Word) : (s.setReg r v).visible = (t.setReg r v).visible := by
  cases r <;> simp_all [State.visible_eq_iff]

theorem State.fetch_congr : s.fetch = t.fetch := by
  obtain ⟨-, -, -, hpc, -, -, hprog, hlen, -⟩ := (s.visible_eq_iff t).mp h
  simp only [State.fetch, State.memRead, hpc, hprog, hlen]

theorem State.faultOf_congr (i : Instr) : s.faultOf i = t.faultOf i := by
  obtain ⟨-, -, -, -, hout, -, -, -, hcfg⟩ := (s.visible_eq_iff t).mp h
  simp only [State.faultOf, State.outFull_iff, hout, hcfg]

theorem State.comboValue_congr (k : Combo) : s.comboValue k = t.comboValue k := by
  cases k with
  | lit v => rfl
  | reg r => exact State.getReg_congr h r
  | reserved => rfl

theorem State.result_congr (i : Instr) : s.result i = t.result i := by
  obtain ⟨ha, hb, hc, -⟩ := (s.visible_eq_iff t).mp h
  have hjump : s.jumpCondition = t.jumpCondition := by simp only [State.jumpCondition, ha]
  cases i <;> simp only [State.result, hjump, ha, hb, hc, State.comboValue_congr h]

end Congruences

theorem State.writeAll_visible_congr {s t : State} (h : s.visible = t.visible) (ws : List (Reg × Word)) :
    (s.writeAll ws).visible = (t.writeAll ws).visible := by
  induction ws generalizing s t with
  | nil => exact h
  | cons w ws ih => exact ih (State.setReg_visible_congr h w.1 w.2)

theorem State.commit_visible_congr {s t : State} (h : s.visible = t.visible) (r : Result) :
    (s.commit r).visible = (t.commit r).visible := by
  obtain ⟨ha, hb, hc, -⟩ := (State.visible_eq_iff _ _).mp (State.writeAll_visible_congr h r.writes)
  obtain ⟨-, -, -, hpc, hout, hrun, hprog, hlen, hcfg⟩ := (s.visible_eq_iff t).mp h
  have hnext : s.nextPc r.next = t.nextPc r.next := by cases r.next <;> simp [State.nextPc, hpc]
  rw [State.commit_eq, State.commit_eq]
  simp [State.visible_eq_iff, ha, hb, hc, hnext, hout, hrun, hprog, hlen, hcfg]

theorem exec_visible_congr {s t s' : State} {i : Instr} (h : s.visible = t.visible) (hs : exec i s = .next s') :
    ∃ t', exec i t = .next t' ∧ s'.visible = t'.visible := by
  have hfault := State.faultOf_congr h i
  rcases exec_cases hs with ⟨hnone, rfl⟩ | ⟨c, hsome, rfl⟩
  · refine ⟨_, exec_of_faultOf_none (hfault.symm.trans hnone), ?_⟩
    rw [← State.result_congr h]
    exact State.commit_visible_congr h _
  · exact ⟨_, exec_of_faultOf_some (hfault.symm.trans hsome), State.takeFault_visible_congr h _ _⟩

/-- A step without a budget has its match from every state that looks the same. -/
theorem step_visible_congr {s t s' : State} (h : s.visible = t.visible) (hmax : s.cfg.maxSteps = none)
    (hs : step s = .next s') : ∃ t', step t = .next t' ∧ s'.visible = t'.visible := by
  have hbudget : t.budgetSpent = false := State.budgetSpent_of_none (State.cfg_congr h ▸ hmax)
  obtain ⟨hrun, ⟨hend, rfl⟩ | ⟨-, hspent, -⟩ | ⟨-, -, op, operand, hfetch, hexec⟩⟩ := step_cases s s' hs
  · obtain ⟨-, -, -, hpc, -, -, -, hlen, -⟩ := (s.visible_eq_iff t).mp h
    have hend' : t.len ≤ t.pc + 1 := by rw [← hlen, ← hpc]; exact s.atEnd_iff.mp hend
    exact ⟨_, step_of_atEnd (State.runState_congr h ▸ hrun) hend', State.halt_visible_congr h⟩
  · simp [State.budgetSpent_of_none hmax] at hspent
  · rw [step_of_fetch (State.runState_congr h ▸ hrun) hbudget (State.fetch_congr h ▸ hfetch)]
    exact exec_visible_congr h hexec

/-- A run without a budget has its match from every state that looks the same. -/
theorem State.steps_visible_congr {k : Nat} {s t s' : State} (h : s.visible = t.visible)
    (hmax : s.cfg.maxSteps = none) (hs : s.steps k = some s') :
    ∃ t', t.steps k = some t' ∧ s'.visible = t'.visible := by
  induction k generalizing s t with
  | zero =>
    obtain rfl : s = s' := Option.some.inj hs
    exact ⟨t, rfl, h⟩
  | succ k ih =>
    rw [State.steps_succ] at hs ⊢
    obtain ⟨s₁, hfirst, hrest⟩ := Option.bind_eq_some_iff.mp hs
    have hstep := (s.after_step_eq_some_iff s₁).mp hfirst
    obtain ⟨t₁, hstep', h₁⟩ := step_visible_congr h hmax hstep
    rw [(t.after_step_eq_some_iff t₁).mpr hstep', Option.bind_some]
    exact ih h₁ (by rw [(step_prog_cfg hstep).2, hmax]) hrest

/-- Settles O27: either run matches the other. -/
theorem controlRegistersInvisible : Obligations.ControlRegistersInvisible := by
  intro k s t hmax h
  cases hs : s.steps k with
  | some s' =>
    obtain ⟨t', ht, h'⟩ := State.steps_visible_congr h hmax hs
    rw [ht, Option.map_some, Option.map_some, h']
  | none =>
    cases ht : t.steps k with
    | none => rfl
    | some t' =>
      obtain ⟨s', hs', -⟩ := State.steps_visible_congr h.symm (State.cfg_congr h ▸ hmax) ht
      simp [hs] at hs'

end Sys2Proof.Machine
end

section
/-! PROOFS. The host's view: the widths of the registers, what is refused while RUNNING, what READ answers, RESET and
the codes of STATUS and CAUSE (R33 to R35, R41, R42, R247). -/

namespace Sys2Proof.Machine

/-! ### Widths (R27, R33) -/

theorem lt_two_pow_bitlen (n : Nat) : n < 2 ^ bitlen n := Nat.lt_log2_self

/-- IP_W bits hold every index up to PROG_MAX_LEN and every jump target (R8). -/
theorem State.Inv.lt_two_pow_ipW {s : State} (hs : s.Inv) {n : Nat} (h : n ≤ max s.cfg.progMaxLen 7) :
    n < 2 ^ s.cfg.ipW := by
  have hcfg := hs.cfg_ok
  simp only [Config.wellFormed, Bool.and_eq_true, decide_eq_true_eq] at hcfg
  obtain ⟨-, hwidth⟩ := hcfg
  calc n ≤ max s.cfg.progMaxLen 7 := h
    _ < 2 ^ bitlen (max s.cfg.progMaxLen 7) := lt_two_pow_bitlen _
    _ ≤ 2 ^ s.cfg.ipW := Nat.pow_le_pow_right (by decide) hwidth

/-- FAULT_IP is pc or 0 (R36). -/
theorem State.Inv.faultIp_le_pc {s : State} (hs : s.Inv) : s.faultIp ≤ s.pc := by
  obtain ⟨hstep, hother⟩ := hs.ip_ok
  cases h : s.cause.inStep
  · rw [hother h]; exact Nat.zero_le _
  · exact (hstep h).le

/-- A loaded register reads as a 64-bit value. -/
theorem State.readLoaded_lt {s : State} {r : Reg} {v : Nat} (h : s.readLoaded r = some v) : v < 2 ^ 64 := by
  obtain ⟨-, rfl⟩ : s.loaded r = true ∧ (s.getReg r).toNat = v := by simpa [State.readLoaded] using h
  exact (s.getReg r).isLt

/-- Under the invariant every host register fits its width. -/
theorem State.Inv.readReg_lt {s : State} (hs : s.Inv) {r : BlockReg} {v w : Nat} (hv : s.readReg r = some v)
    (hw : r.width s.cfg = some w) : v < 2 ^ w := by
  cases r <;> simp only [State.readReg, BlockReg.width, Option.some.injEq, Option.map_eq_some_iff] at hv hw
  case LEN => subst hv hw; exact hs.lt_two_pow_ipW (le_max_of_le_left hs.len_le)
  case PC => subst hv hw; exact hs.lt_two_pow_ipW hs.pc_le
  case FAULT_IP => subst hv hw; exact hs.lt_two_pow_ipW (hs.faultIp_le_pc.trans hs.pc_le)
  case OUT_COUNT =>
    obtain ⟨d, hd, rfl⟩ := hw
    subst hv
    exact lt_of_le_of_lt (hs.out_le d hd) (lt_two_pow_bitlen d)
  case OUT_DATA =>
    obtain ⟨d, -, rfl⟩ := hv
    subst hw; exact d.isLt
  case STATUS => subst hv hw; exact s.status.isLt
  case CAUSE => subst hv hw; exact s.cause.code.isLt
  case FAULT_INSN => subst hv hw; exact s.faultInsn.isLt
  case STEP_COUNT => subst hv hw; exact s.stepCount.isLt
  all_goals subst hw; exact State.readLoaded_lt hv

/-- Settles O36: reachable states keep the invariant, and under it every register fits. -/
theorem hostRegistersFitTheirWidths : Obligations.HostRegistersFitTheirWidths :=
  fun _ _ _ _ hs hv hw => hs.inv.readReg_lt hv hw

/-! ### What is refused (R41) -/

/-- The numbers up to 0x0B name a register, 0x04 alone STATUS (R33). -/
theorem BlockReg.ofNumber_of_le {n : Nat} (h : n ≤ 0x0B) :
    ∃ r, BlockReg.ofNumber n = some r ∧ (r = .STATUS ↔ n = 0x04) := by
  interval_cases n <;> exact ⟨_, rfl, by decide⟩

/-- A number above 0x0B names no register (R33). -/
theorem BlockReg.ofNumber_of_gt {n : Nat} (h : 0x0B < n) : BlockReg.ofNumber n = none := by
  obtain ⟨m, rfl⟩ := Nat.exists_eq_add_of_le' (Nat.succ_le_of_lt h)
  rfl

/-- READ of a register the host may read now answers it. -/
theorem State.hostRead_of_ofNumber {s : State} {n : Nat} {r : BlockReg} (hn : BlockReg.ofNumber n = some r)
    (h : r = .STATUS ∨ s.runState ≠ .running) : s.hostRead n = s.readReply r := by
  simp only [State.hostRead, hn, if_pos h]

theorem State.hostRead_of_gt (s : State) {n : Nat} (h : 0x0B < n) : s.hostRead n = .refused := by
  simp only [State.hostRead, BlockReg.ofNumber_of_gt h]

theorem State.readReply_ne_refused (s : State) (r : BlockReg) : s.readReply r ≠ .refused := by
  unfold State.readReply
  split <;> simp

/-- While RUNNING a READ answers STATUS alone. -/
theorem State.hostRead_of_running {s : State} (hrun : s.runState = .running) (n : Nat) :
    s.hostRead n = if n = 0x04 then .value s.status.toNat else .refused := by
  by_cases hle : n ≤ 0x0B
  · obtain ⟨r, hr, hstatus⟩ := BlockReg.ofNumber_of_le hle
    by_cases hn : n = 0x04
    · rw [State.hostRead_of_ofNumber hr (.inl (hstatus.mpr hn)), if_pos hn, hstatus.mpr hn]; rfl
    · simp [State.hostRead, hr, hstatus, hn, hrun]
  · rw [s.hostRead_of_gt (by omega), if_neg (by omega)]

/-- Settles O45, transaction by transaction. -/
theorem runningRefusesTheHost : Obligations.RunningRefusesTheHost := by
  refine ⟨fun s x hrun hx => ?_, fun s => rfl, fun s x hrun hload hread => ?_⟩
  · cases x with
    | reset => exact absurd rfl hx
    | read n =>
      by_cases hn : n = 0x04 <;> simp [State.transact, State.hostRead_of_running hrun, hn]
    | _ => simp [State.transact, hrun]
  · cases x with
    | reset => simp [State.transact]
    | writeReg r v => simp [State.transact, hrun]
    | loadProgram ws => simp [State.transact, hrun, hload ws rfl]
    | start => simp [State.transact, hrun]
    | readOutput => simp [State.transact, hrun]
    | read n =>
      obtain ⟨r, hr, -⟩ := BlockReg.ofNumber_of_le (hread n rfl)
      simp only [State.transact]
      rw [State.hostRead_of_ofNumber hr (.inr hrun)]
      exact s.readReply_ne_refused r

/-! ### Power-on, RESET, READ and the codes (R33 to R35, R42, R247) -/

/-- Settles O30; `Config.standard` is one of the well-formed configurations. -/
theorem invariantAtPowerOn : Obligations.InvariantAtPowerOn :=
  ⟨fun _ h => inv_resetWith h 0, inv_resetWith (cfg := Config.standard) (by decide) 0⟩

/-- Settles O41, by what `hostReset` leaves in each field. -/
theorem resetClearsEverything : Obligations.ResetClearsEverything := by
  rintro s t rfl
  simp [State.transact, State.readReg, State.readLoaded, State.loaded, State.outCount, State.outData]

/-- READ of a general register answers it if it is loaded (R23, R247). -/
theorem State.hostRead_general {s : State} (hrun : s.runState ≠ .running) {n : Nat} {b : BlockReg} (r : Reg)
    (hn : BlockReg.ofNumber n = some b) (hb : s.readReg b = s.readLoaded r) :
    s.hostRead n = if s.loaded r then .value (s.getReg r).toNat else .noValue := by
  rw [State.hostRead_of_ofNumber hn (.inr hrun), State.readReply, hb, State.readLoaded]
  cases s.loaded r <;> rfl

/-- READ of OUT_DATA answers the last value of OUT (R30, R247). -/
theorem State.hostRead_outData {s : State} (hrun : s.runState ≠ .running) :
    s.hostRead 0x0A = match s.out.getLast? with | some d => .value d.toNat | none => .noValue := by
  rw [State.hostRead_of_ofNumber (r := .OUT_DATA) rfl (.inr hrun), State.readReply, State.readReg, State.outData]
  cases s.out.getLast? <;> rfl

/-- Settles O47, register by register. -/
theorem readAnswersTheRegister : Obligations.ReadAnswersTheRegister := by
  intro s hrun
  have hread : ∀ {n r v}, BlockReg.ofNumber n = some r → s.readReg r = some v → s.hostRead n = .value v := by
    intro n r v hn hv
    rw [State.hostRead_of_ofNumber hn (.inr hrun), State.readReply, hv]
  exact ⟨State.hostRead_general hrun .A rfl rfl, State.hostRead_general hrun .B rfl rfl,
    State.hostRead_general hrun .C rfl rfl, hread rfl rfl, hread rfl rfl, hread rfl rfl, hread rfl rfl, hread rfl rfl,
    hread rfl rfl, hread rfl rfl, State.hostRead_outData hrun, hread rfl rfl, fun _ hn => s.hostRead_of_gt hn,
    if_neg hrun⟩

/-- The places of STATUS's fields, for any flags and any code of STATE (R34). -/
theorem toNat_status_fields : ∀ (p c b a : Bool) (code : BitVec 2),
    (BitVec.ofBool p ++ BitVec.ofBool c ++ BitVec.ofBool b ++ BitVec.ofBool a ++ code).toNat =
      code.toNat + 4 * a.toNat + 8 * b.toNat + 16 * c.toNat + 32 * p.toNat := by decide

/-- Settles O48, by the places of the fields, and STATE by STATE. -/
theorem statusHoldsStateAndFlags : Obligations.StatusHoldsStateAndFlags := by
  intro s
  refine ⟨toNat_status_fields _ _ _ _ _, ?_⟩
  cases s.runState <;> decide

/-- Settles O49, cause by cause. -/
theorem causeCodesAreAsListed : Obligations.CauseCodesAreAsListed :=
  ⟨rfl, fun c => by cases c <;> decide⟩

end Sys2Proof.Machine
end

section
/-! PROOFS. The program store: nothing writes it during a run, under the invariant it holds the words below LEN, and so
a RUNNING machine always steps (R50, R51, R103). -/

namespace Sys2Proof.Machine

/-! ### The store under the invariant (R32, R50) -/

/-- Under the invariant the store is what a LOAD_PROGRAM of its words makes (R244). -/
theorem State.Inv.prog_eq_ofWords {s : State} (hs : s.Inv) : s.prog = Memory.ofWords (s.prog.map (·.2)) :=
  Memory.eq_ofWordsFrom (hs.prog_ok.trans List.range_eq_range')

/-- Under the invariant an index reads as a word exactly below LEN (R50). -/
theorem State.Inv.read_isSome_iff {s : State} (hs : s.Inv) (i : Nat) :
    (Memory.read s.prog i).isSome = true ↔ i < s.len := by
  simp [hs.read_prog, hs.length_prog]

/-- Settles O35: the store is a load of its words, and a read is a look-up in them. -/
theorem programStoreHoldsTheProgram : Obligations.ProgramStoreHoldsTheProgram := by
  intro s hs
  refine ⟨?_, hs.read_isSome_iff⟩
  rw [hs.prog_eq_ofWords]
  exact Memory.wf_ofWords _

/-! ### Progress of a run (R50, R103) -/

/-- Every instruction answers a next state, a completed one or a taken fault (R104). -/
theorem exec_answers (i : Instr) (s : State) : ∃ t, exec i s = .next t := by
  cases hfault : s.faultOf i with
  | none => exact ⟨_, exec_of_faultOf_none hfault⟩
  | some c => exact ⟨_, exec_of_faultOf_some hfault⟩

/-- With a pair at pc and the budget spent, the step of a RUNNING machine is the budget fault (R102). -/
theorem step_of_budgetSpent {s : State} (hrun : s.runState = .running) (hpair : s.pc + 1 < s.len)
    (hbudget : s.budgetSpent = true) : step s = .next (s.takeFault ⟨.stepBudgetExhausted, .notBegun s.pc⟩) := by
  have hend : ¬ s.atEnd = true := by rw [s.atEnd_iff]; omega
  simp [step, State.cycle, hrun, State.runStep, hend, hbudget]

/-- Settles O34, by R208's order of the tests: the halt, the budget fault, or an instruction, whose fetch the invariant
gives both its words. -/
theorem runningStepCompletes : Obligations.RunningStepCompletes := by
  intro s hs hrun
  rcases Nat.lt_or_ge (s.pc + 1) s.len with hpair | hend
  · cases hbudget : s.budgetSpent with
    | true => exact ⟨_, step_of_budgetSpent hrun hpair hbudget⟩
    | false =>
      obtain ⟨op, operand, hfetch, -, -⟩ := hs.fetch_of_lt hpair
      rw [step_of_fetch hrun hbudget hfetch]
      exact exec_answers _ s
  · exact ⟨_, step_of_atEnd hrun hend⟩

/-! ### The store is read-only during a run (R51) -/

/-- No step changes LEN or a loaded flag (R51). -/
theorem step_len_loaded {s t : State} (h : step s = .next t) :
    t.len = s.len ∧ t.pLd = s.pLd ∧ t.aLd = s.aLd ∧ t.bLd = s.bLd ∧ t.cLd = s.cLd := by
  obtain ⟨-, rfl | ⟨f, -, rfl⟩ | ⟨op, operand, -, -, -, rfl⟩⟩ := step_outcome h <;> simp

/-- While RUNNING every transaction but RESET leaves the whole state (R41). -/
theorem State.transact_of_running {s : State} (hrun : s.runState = .running) {x : Transaction} (hx : x ≠ .reset) :
    (s.transact x).1 = s := by
  rcases s.transact_cases x with h | ⟨hreset, -⟩ | ⟨hidle, -, -⟩
  · exact h
  · exact absurd hreset hx
  · exact absurd hrun hidle

/-- Settles O24: a step ends or continues a run without the store, and a RUNNING block lets the host at RESET alone. -/
theorem programIsReadOnlyDuringRun : Obligations.ProgramIsReadOnlyDuringRun := by
  refine ⟨fun s t h => ?_, fun s x hrun hx => ?_⟩
  · obtain ⟨hprog, hcfg⟩ := step_prog_cfg h
    obtain ⟨hlen, hp, ha, hb, hc⟩ := step_len_loaded h
    exact ⟨fun a => by rw [hprog], hlen, hp, ha, hb, hc, hcfg⟩
  · rw [State.transact_of_running hrun hx]
    exact ⟨fun _ => rfl, rfl⟩

end Sys2Proof.Machine
end

section
/-! PROOFS. Decoding and encoding are inverse to each other, and so are the pair view and the table's numbering of it
(R71, R72, R77, R78). -/

namespace Sys2Proof

/-! ### Decoding the words of an instruction (R75, R77) -/

/-- The code of a combo operand names that operand (R75). -/
@[simp] theorem Combo.ofCode_code (k : Combo) : Combo.ofCode k.code = k := by
  cases k with
  | lit v =>
    have hlit : ∀ v : BitVec 2, Combo.ofCode (Combo.lit v).code = .lit v := by decide
    exact hlit v
  | reg r => cases r <;> rfl
  | reserved => rfl

/-- The two words of an instruction decode to it; `decodePair_words` is the converse (R77). -/
@[simp] theorem decodePair_opcode_operand (i : Instr) : decodePair i.opcode i.operand = i := by
  cases i with
  | adv k => exact congrArg Instr.adv k.ofCode_code
  | bxl l => rfl
  | bst k => exact congrArg Instr.bst k.ofCode_code
  | jnz t => rfl
  | bxc w => rfl
  | out k => exact congrArg Instr.out k.ofCode_code
  | bdv k => exact congrArg Instr.bdv k.ofCode_code
  | cdv k => exact congrArg Instr.cdv k.ofCode_code

/-- An instruction is fixed by its two words (R77). -/
theorem Instr.eq_of_words {i j : Instr} (hop : i.opcode = j.opcode) (hoperand : i.operand = j.operand) : i = j := by
  rw [← decodePair_opcode_operand i, hop, hoperand, decodePair_opcode_operand]

/-- Two words or more decode to the pair of the first two, whatever follows (R71). -/
theorem decode_cons_cons (op operand : Word3) (rest : List Word3) :
    decode (op :: operand :: rest) = .ok (decodePair op operand, rest) := rfl

theorem decode_encode_append (i : Instr) (rest : List Word3) : decode (encode i ++ rest) = .ok (i, rest) := by
  rw [encode, List.cons_append, List.cons_append, List.nil_append, decode_cons_cons, decodePair_opcode_operand]

theorem encode_injective {i j : Instr} (h : encode i = encode j) : i = j := by
  obtain ⟨hop, hoperand⟩ : i.opcode = j.opcode ∧ i.operand = j.operand := by simpa [encode] using h
  exact Instr.eq_of_words hop hoperand

/-! ### The pair view as a number (R72) -/

theorem toNat_pairOf (op operand : Word3) : (pairOf op operand).toNat = op.toNat * 8 + operand.toNat := by
  rw [pairOf, BitVec.toNat_append, ← Nat.shiftLeft_add_eq_or_of_lt operand.isLt, Nat.shiftLeft_eq]

/-- The table reads back the two words of a pair view (log 8). -/
theorem tablePair_toNat_pairOf (op operand : Word3) : tablePair (pairOf op operand).toNat = (op, operand) := by
  have hop := op.isLt
  have hoperand := operand.isLt
  rw [toNat_pairOf, tablePair, Prod.mk.injEq]
  constructor <;> apply BitVec.eq_of_toNat_eq <;> rw [BitVec.toNat_ofNat] <;> omega

theorem pairOf_injective {op op' operand operand' : Word3} (h : pairOf op operand = pairOf op' operand') :
    op = op' ∧ operand = operand' := by
  have hpair : (op, operand) = (op', operand') := by
    rw [← tablePair_toNat_pairOf op operand, h, tablePair_toNat_pairOf]
  exact Prod.mk.inj hpair

theorem pairView_injective {i j : Instr} (h : i.pairView = j.pairView) : i = j :=
  Instr.eq_of_words (pairOf_injective h).1 (pairOf_injective h).2

/-- Settles O37: `decodePair` undoes the two words of an instruction, and a pair view holds both words. -/
theorem decodeEncodeAgree : Obligations.DecodeEncodeAgree :=
  ⟨decode_encode_append, fun _ _ => encode_injective, fun _ _ => pairView_injective⟩

/-! ### The table's numbers (log 8) -/

/-- A number below 64 decodes as its two words, if the table gives it bits enough. -/
theorem decodeTableWord_of_lt {nbits w : Nat} (hbits : w < 2 ^ nbits) (h : w < 64) :
    decodeTableWord nbits w = some (decodePair (tablePair w).1 (tablePair w).2) := by
  simp [decodeTableWord, Nat.mod_eq_of_lt hbits, h, decode_cons_cons]

/-- A number of 64 or more is no pair view. -/
theorem decodeTableWord_of_ge {nbits w : Nat} (hbits : w < 2 ^ nbits) (h : 64 ≤ w) :
    decodeTableWord nbits w = none := by
  simp [decodeTableWord, Nat.mod_eq_of_lt hbits, Nat.not_lt.mpr h]

/-- A pair view decodes to its instruction with any number of bits from 6 on. -/
theorem decodeTableWord_pairView (i : Instr) {nbits : Nat} (h : 6 ≤ nbits) :
    decodeTableWord nbits i.pairView.toNat = some i := by
  have hbits : i.pairView.toNat < 2 ^ nbits := i.pairView.isLt.trans_le (Nat.pow_le_pow_right (by decide) h)
  rw [decodeTableWord_of_lt hbits i.pairView.isLt, Instr.pairView, tablePair_toNat_pairOf, decodePair_opcode_operand]

/-- Settles O40: the pair view's two words are its number's two octal digits, and 64 is past the last pair view. -/
theorem pairViewsDecode : Obligations.PairViewsDecode :=
  ⟨fun i => ⟨toNat_pairOf _ _, decodeTableWord_pairView i le_rfl, decodeTableWord_pairView i (by decide)⟩,
   fun _ hge hlt => decodeTableWord_of_ge hlt hge⟩

/-! ### The words of a decoded pair (R71, R78) -/

/-- Settles O38: a decoded pair keeps both its words. -/
theorem decodingIsTotal : Obligations.DecodingIsTotal := fun op operand =>
  ⟨by rw [encode, Machine.opcode_decodePair, Machine.operand_decodePair], decode_cons_cons op operand []⟩

/-- Settles O39: the eight written pairs and the single word are what `decode` computes. -/
theorem writtenWordsDecode : Obligations.WrittenWordsDecode :=
  ⟨rfl, rfl, rfl, rfl, rfl, rfl, rfl, rfl, rfl⟩

end Sys2Proof
end

section
/-! PROOFS. The combo codes and the illegal encodings: what a code resolves to, and what code 7 does (R75, R80). -/

namespace Sys2Proof.Machine

/-! ### The combo codes (R75) -/

/-- The codes 0 to 3 are the literals of their low two bits (R75). -/
theorem ofCode_of_le_three : ∀ w : Word3, w.toNat ≤ 3 → Combo.ofCode w = .lit (w.setWidth 2) := by decide

/-- A code up to 3 loses nothing in its literal's two bits. -/
theorem setWidth_setWidth_of_le_three {w : Word3} (h : w.toNat ≤ 3) : (w.setWidth 2).setWidth 64 = w.setWidth 64 := by
  apply BitVec.eq_of_toNat_eq
  rw [BitVec.toNat_setWidth, BitVec.toNat_setWidth, BitVec.toNat_setWidth]
  omega

/-- Settles O10: a code up to 3 is a literal, and each other code is the operand it names. -/
theorem comboCodesResolve : Obligations.ComboCodesResolve := by
  refine fun s i => ⟨fun w hw => ?_, rfl, rfl, rfl, rfl⟩
  rw [ofCode_of_le_three w hw, State.resolve, setWidth_setWidth_of_le_three hw]

/-- Code 7 and no other is reserved (R75). -/
theorem ofCode_eq_reserved_iff : ∀ w : Word3, Combo.ofCode w = .reserved ↔ w = 7 := by decide

/-! ### The illegal encodings (R80) -/

/-- A decoded pair is illegal exactly if its operand is 7 and its opcode is none of bxl, jnz and bxc (R80). -/
theorem legal_decodePair_eq_false_iff (op operand : Word3) :
    (decodePair op operand).legal = false ↔ operand = 7 ∧ op ≠ 1 ∧ op ≠ 3 ∧ op ≠ 4 := by
  rw [legal_eq_false_iff]
  rcases word3_cases op with rfl | rfl | rfl | rfl | rfl | rfl | rfl | rfl <;>
    simp [decodePair, Instr.combo?, ofCode_eq_reserved_iff]

/-- An illegal instruction takes INVALID_OPERAND, whatever the state (R80). -/
theorem exec_of_illegal {i : Instr} (s : State) (h : i.legal = false) :
    exec i s = .next (s.takeFault (s.raised .invalidOperand i)) :=
  exec_of_faultOf_some ((s.faultOf_eq_some_iff i _).mpr (.inl ⟨h, rfl⟩))

/-- LOAD_PROGRAM looks at STATE and the number of words, not at what they encode (R80, R244). -/
theorem State.transact_loadProgram {s : State} {ws : List Word3} (hrun : s.runState ≠ .running)
    (hlen : ws.length ≤ s.cfg.progMaxLen) : s.transact (.loadProgram ws) = (s.hostLoadProgram ws, .accepted) :=
  if_pos ⟨hrun, hlen⟩

/-- Settles O11: operand 7 is illegal with the five combo opcodes, its exec is the fault, and a load accepts it. -/
theorem illegalEncodingsAreExactlyFive : Obligations.IllegalEncodingsAreExactlyFive := by
  refine ⟨fun op operand => ?_, fun i s h => exec_of_illegal s h, fun s ws hrun hlen => ?_⟩
  · rw [legal_decodePair_eq_false_iff]
    rcases word3_cases op with rfl | rfl | rfl | rfl | rfl | rfl | rfl | rfl <;> simp
  · rw [State.transact_loadProgram hrun hlen]

end Sys2Proof.Machine
end

section
/-! PROOFS. The assembler on a line that begins with a mnemonic: what it makes of the operand, and the two statements
about lines of one operand character (R82, R83; log 15). -/

namespace Sys2Proof.Machine

/-! ### The operand digit (R83) -/

theorem toNat_digitOf : ∀ w : Word3, (digitOf w).toNat = 48 + w.toNat := by decide

/-- A one-character token is read as `w` exactly if it is the digit that prints `w` (R83). -/
theorem operandOfToken_eq_some_iff (d : Char) (w : Word3) : operandOfToken [d] = some w ↔ d = digitOf w := by
  constructor
  · intro h
    simp only [operandOfToken, Option.ite_none_right_eq_some, Option.some.injEq] at h
    obtain ⟨⟨hlo, hhi⟩, rfl⟩ := h
    apply Char.toNat_inj.mp
    rw [toNat_digitOf, BitVec.toNat_ofNat]
    omega
  · rintro rfl
    have hdigits : ∀ w : Word3, operandOfToken [digitOf w] = some w := by decide
    exact hdigits w

theorem operandOfToken_eq_none {d : Char} (h : ∀ w : Word3, d ≠ digitOf w) : operandOfToken [d] = none :=
  Option.eq_none_iff_forall_ne_some.mpr fun w hw => h w ((operandOfToken_eq_some_iff d w).mp hw)

/-- No operand digit is a space or a semicolon. -/
theorem digitOf_ne_separator : ∀ w : Word3, digitOf w ≠ ' ' ∧ digitOf w ≠ ';' := by decide

/-! ### The mnemonic (R82) -/

theorem opcodeOfMnemonic_mnemonic (i : Instr) : opcodeOfMnemonic (mnemonic i) = some i.opcode := by
  cases i <;> rfl

theorem mnemonic_ne_nil (i : Instr) : mnemonic i ≠ [] := by
  cases i <;> exact List.cons_ne_nil _ _

/-- No mnemonic holds a space or a semicolon. -/
theorem mnemonic_ne_separator (i : Instr) : ∀ c ∈ mnemonic i, c ≠ ' ' ∧ c ≠ ';' := by
  cases i <;> simp [mnemonic]

/-- A text that begins with a mnemonic has no spaces to skip before it. -/
theorem dropWhile_space_mnemonic_append (i : Instr) (tail : List Char) :
    (mnemonic i ++ tail).dropWhile (· == ' ') = mnemonic i ++ tail := by
  cases i <;> rfl

/-! ### The rest of the line (R83, log 15) -/

/-- What the assembler answers for the opcode `op` and the text from its operand on. -/
def assembleOperands (op : Word3) (operands : List Char) : Except AsmError (Option Assembled) :=
  match operandOfToken (operands.takeWhile (· != ' ')) with
  | none => .error .badOperand
  | some w =>
    if (operands.dropWhile (· != ' ')).all (· == ' ') then
      .ok (some ⟨decodePair op w, !(decodePair op w).legal⟩)
    else .error .trailingText

/-- A line of a mnemonic and a tail that does not lengthen the mnemonic is assembled by `assembleOperands`, from the
tail without its comment and the spaces before the operand. -/
theorem assembleLine_mnemonic_append (i : Instr) {tail text : List Char}
    (htext : tail.takeWhile (· != ';') = text) (hsep : text.takeWhile (· != ' ') = []) :
    assembleLine (mnemonic i ++ tail) = assembleOperands i.opcode (text.dropWhile (· == ' ')) := by
  have hcomment : (mnemonic i ++ tail).takeWhile (· != ';') = mnemonic i ++ text := by
    rw [List.takeWhile_append_of_pos (by simpa using fun c hc => (mnemonic_ne_separator i c hc).2), htext]
  have hword : ∀ c ∈ mnemonic i, (c != ' ') = true := by simpa using fun c hc => (mnemonic_ne_separator i c hc).1
  have hmnemonic : (mnemonic i ++ text).takeWhile (· != ' ') = mnemonic i := by
    rw [List.takeWhile_append_of_pos hword, hsep, List.append_nil]
  have hdrop : (mnemonic i ++ text).dropWhile (· != ' ') = text := by
    rw [List.dropWhile_append_of_pos hword]
    simpa [hsep] using (List.takeWhile_append_dropWhile (p := (· != ' ')) (l := text))
  have hne : (mnemonic i ++ text).isEmpty = false := by simp [mnemonic_ne_nil]
  simp only [assembleLine, hcomment, dropWhile_space_mnemonic_append, hne, hmnemonic, hdrop, opcodeOfMnemonic_mnemonic]
  rfl

/-- A line of a mnemonic, a space and one operand character, with spaces and a comment allowed after it. -/
theorem assembleLine_mnemonic_char (i : Instr) {d : Char} (hspace : d ≠ ' ') (hsemi : d ≠ ';')
    {tail : List Char} {n : Nat} (htail : tail.takeWhile (· != ';') = List.replicate n ' ') :
    assembleLine (mnemonic i ++ ' ' :: d :: tail) = assembleOperands i.opcode (d :: List.replicate n ' ') := by
  rw [assembleLine_mnemonic_append i (text := ' ' :: d :: List.replicate n ' ')] <;>
    simp [hspace, hsemi, htail]

/-- An operand character that is no digit 0 to 7 is rejected. -/
theorem assembleOperands_bad {op : Word3} {d : Char} (hspace : d ≠ ' ') (h : ∀ w : Word3, d ≠ digitOf w) :
    assembleOperands op [d] = .error .badOperand := by
  simp [assembleOperands, hspace, operandOfToken_eq_none h]

/-- An operand digit with spaces after it gives the pair of the two words, with a warning if it is illegal. -/
theorem assembleOperands_digit (op w : Word3) (n : Nat) :
    assembleOperands op (digitOf w :: List.replicate n ' ') =
      .ok (some ⟨decodePair op w, !(decodePair op w).legal⟩) := by
  have hne := (digitOf_ne_separator w).1
  have htoken : (digitOf w :: List.replicate n ' ').takeWhile (· != ' ') = [digitOf w] := by
    cases n <;> simp [hne, List.replicate_succ]
  have hrest : (digitOf w :: List.replicate n ' ').dropWhile (· != ' ') = List.replicate n ' ' := by
    cases n <;> simp [hne, List.replicate_succ]
  simp [assembleOperands, htoken, hrest, (operandOfToken_eq_some_iff _ w).mpr rfl]

/-! ### The two statements -/

/-- The line of an instruction, with spaces and a comment after it, assembles to the instruction (R83). -/
theorem assembleLine_disassemble_append (i : Instr) {tail : List Char} {n : Nat}
    (htail : tail.takeWhile (· != ';') = List.replicate n ' ') :
    assembleLine (disassemble i ++ tail) = .ok (some ⟨i, !i.legal⟩) := by
  obtain ⟨hspace, hsemi⟩ := digitOf_ne_separator i.operand
  have hline : disassemble i ++ tail = mnemonic i ++ ' ' :: digitOf i.operand :: tail := by simp [disassemble]
  rw [hline, assembleLine_mnemonic_char i hspace hsemi htail, assembleOperands_digit, decodePair_opcode_operand]

/-- Settles O53: nothing, or one space and a comment, stands after the digit. -/
theorem assemblerReadsItsOwnLines : Obligations.AssemblerReadsItsOwnLines := by
  refine fun i comment => ⟨?_, assembleLine_disassemble_append i (n := 1) (by simp)⟩
  rw [← List.append_nil (disassemble i)]
  exact assembleLine_disassemble_append i (n := 0) rfl

/-- Settles O54: the token of the one character is no digit, and the token of an absent operand is empty. -/
theorem assemblerRejectsBadOperands : Obligations.AssemblerRejectsBadOperands := by
  refine fun i d hspace hsemi hdigit => ⟨?_, ?_⟩
  · rw [assembleLine_mnemonic_char i hspace hsemi (n := 0) rfl]
    exact assembleOperands_bad hspace hdigit
  · rw [← List.append_nil (mnemonic i), assembleLine_mnemonic_append i (text := []) rfl rfl]
    rfl

end Sys2Proof.Machine
end

section
/-! PROOFS. The cycle: when the block has a step, which of the halt, the budget fault and the decoded instruction it is,
and what the end of a run leaves (R100 to R110). -/

namespace Sys2Proof.Machine

/-! ### Reachable states run on (R100, R242) -/

/-- Settles O33: reachable states keep the invariant, and under it a RUNNING machine steps. -/
theorem reachableStatesKeepInvariant : Obligations.ReachableStatesKeepInvariant :=
  fun s h => ⟨h.inv, runningStepCompletes s h.inv⟩

/-! ### What an instruction leaves in STATE and CAUSE (R104) -/

/-- An instruction goes on with the run or faults it: no instruction halts it (R101, R110). -/
theorem exec_runState {i : Instr} {s t : State} (h : exec i s = .next t) :
    t.runState = s.runState ∨ t.runState = .faulted := by
  rcases exec_cases h with ⟨-, rfl⟩ | ⟨c, -, rfl⟩
  · exact .inl (State.commit_runState _ _)
  · exact .inr rfl

/-- The causes an instruction raises are INVALID_OPERAND and OUTPUT_OVERFLOW (R201, R205). -/
theorem State.faultOf_ofInsn {s : State} {i : Instr} {c : Cause} (h : s.faultOf i = some c) : c.ofInsn = true := by
  rcases (s.faultOf_eq_some_iff i c).mp h with ⟨-, rfl⟩ | ⟨-, -, -, rfl⟩ <;> rfl

/-- An instruction leaves CAUSE, or records one that an instruction raises. -/
theorem exec_cause {i : Instr} {s t : State} (h : exec i s = .next t) : t.cause = s.cause ∨ t.cause.ofInsn = true := by
  rcases exec_cases h with ⟨-, rfl⟩ | ⟨c, hfault, rfl⟩
  · exact .inl (State.commit_cause _ _)
  · exact .inr (State.faultOf_ofInsn hfault)

/-! ### The tests before the fetch (R101, R102) -/

/-- Settles O16: with no pair at pc the step is the halt, and neither a fault nor an instruction ends in HALTED. -/
theorem haltExactlyWithoutPair : Obligations.HaltExactlyWithoutPair := by
  refine fun s hrun => ⟨step_of_atEnd hrun, fun t h hhalted => ?_⟩
  obtain ⟨-, ⟨hend, -⟩ | ⟨-, -, rfl⟩ | ⟨-, -, op, operand, -, hexec⟩⟩ := step_cases s t h
  · exact s.atEnd_iff.mp hend
  · simp at hhalted
  · rcases exec_runState hexec with hkeep | hfault
    · simp [hkeep, hrun] at hhalted
    · simp [hfault] at hhalted

/-- Settles O17: a spent budget is the fault, and no halt and no instruction records that cause. -/
theorem stepBudgetTest : Obligations.StepBudgetTest := by
  refine fun s hrun hpair => ⟨fun hmax => ?_, fun hmax hcause t h => ?_⟩
  · exact step_of_budgetSpent hrun hpair (s.budgetSpent_iff.mpr hmax)
  · obtain ⟨-, ⟨-, rfl⟩ | ⟨-, hspent, -⟩ | ⟨-, -, op, operand, -, hexec⟩⟩ := step_cases s t h
    · exact hcause
    · exact absurd (s.budgetSpent_iff.mp hspent) hmax
    · rcases exec_cause hexec with hkeep | hinsn
      · rwa [hkeep]
      · intro hbudget
        simp [hbudget, Cause.ofInsn] at hinsn

/-! ### The end of a run (R109, R211) -/

theorem State.runEnd_halt (s : State) : s.halt.runEnd = some (.result s.a s.b s.c s.out) := rfl

theorem State.runEnd_takeFault (s : State) (f : Raised) :
    (s.takeFault f).runEnd = some (.failed f.cause f.info.ip f.info.pair) := rfl

theorem State.runEnd_of_running {s : State} (h : s.runState = .running) : s.runEnd = none := by
  simp only [State.runEnd, h]

/-- Settles O51: a step is the halt, a fault that records its pc, or a commit, which goes on with the run. -/
theorem runEndIsResultOrFault : Obligations.RunEndIsResultOrFault := by
  intro s t h
  obtain ⟨hrun, rfl | ⟨f, ⟨hip, -, -⟩, rfl⟩ | ⟨op, operand, -, -, -, rfl⟩⟩ := step_outcome h
  · simp [State.runEnd_halt]
  · simp [State.runEnd_takeFault, hip]
  · have hgoes : (s.commit (s.result (decodePair op operand))).runState = .running := by
      rw [State.commit_runState, hrun]
    simp [State.runEnd_of_running hgoes, hrun]

/-! ### The step of a RUNNING machine and of any other (R100, R103, R104) -/

/-- A whole pair below LEN that the store holds is what the fetch answers, wherever pc is (R26, R103). -/
theorem State.fetch_of_read {s : State} {op operand : Word3} (hpair : s.pc + 1 < s.len)
    (hop : Memory.read s.prog s.pc = some op) (hoperand : Memory.read s.prog (s.pc + 1) = some operand) :
    s.fetch = .ok (op, operand) :=
  (s.fetch_ok op operand).mpr
    ⟨(s.memRead_ok _ _).mpr ⟨by omega, hop⟩, (s.memRead_ok _ _).mpr ⟨hpair, hoperand⟩⟩

/-- Settles O15: the two words read are the pair fetched, and `decode` of two words is `decodePair`. -/
theorem stepRunsDecodedInstruction : Obligations.StepRunsDecodedInstruction := by
  intro s op operand i hrun hpair hbudget hop hoperand hdecode
  obtain rfl : decodePair op operand = i := by
    rw [decode_cons_cons, Except.ok.injEq, Prod.mk.injEq] at hdecode
    exact hdecode.1
  exact step_of_fetch hrun hbudget (State.fetch_of_read hpair hop hoperand)

/-- Settles O18: the cycle asks for RUNNING before anything else. -/
theorem noStepOutsideRun : Obligations.NoStepOutsideRun := fun _ h => step_of_not_running h

end Sys2Proof.Machine
end

section
/-! PROOFS. The shift-right family: the shift as floor division, a combo operand as a number, and the three instructions
as one, told apart by the register they write (R120 to R123). -/

namespace Sys2Proof.Machine

/-! ### The shift (R120) -/

/-- A count of 64 or more shifts every bit out, for the count is not masked. -/
theorem shr_of_le {n : Word} (a : Word) (h : 64 ≤ n.toNat) : shr a n = 0 := if_neg (by omega)

theorem shr_of_lt {n : Word} (a : Word) (h : n.toNat < 64) : shr a n = a >>> n.toNat := if_pos h

@[simp] theorem shr_zero (a : Word) : shr a 0 = a := BitVec.eq_of_toNat_eq (by simp [toNat_shr])

@[simp] theorem zero_shr (n : Word) : shr 0 n = 0 := BitVec.eq_of_toNat_eq (by simp [toNat_shr])

/-- Shifted by itself a word gives 0, because `a < 2 ^ a` (R121). -/
@[simp] theorem shr_self (a : Word) : shr a a = 0 :=
  BitVec.eq_of_toNat_eq (by rw [toNat_shr, Nat.div_eq_of_lt Nat.lt_two_pow_self]; rfl)

/-- The quotient, a number, as the word that the shift gives. -/
theorem ofNat_div_two_pow (a n : Word) : BitVec.ofNat 64 (a.toNat / 2 ^ n.toNat) = shr a n := by
  rw [← toNat_shr, BitVec.ofNat_toNat, BitVec.setWidth_eq]

/-- Settles O4: floor division for every count gives the bound, and the clauses split at 64 as `shr` does. -/
theorem shiftIsUnmaskedFloorDivision : Obligations.ShiftIsUnmaskedFloorDivision := by
  refine fun a n => ⟨toNat_shr a n, ?_, fun _ hle => shr_of_lt a (by omega), shr_of_le a, ?_⟩
  · rintro rfl
    exact shr_zero a
  · rw [toNat_shr]
    exact Nat.div_le_self _ _

/-! ### A combo operand as a number, and an instruction that writes one register (R75, R104) -/

/-- The codes with a number are all but 7, and the number is that of the operand's value (R75). -/
theorem State.comboNumber_eq_some_iff (s : State) (w : Word3) (n : Nat) :
    s.comboNumber w.toNat = some n ↔
      Combo.ofCode w ≠ .reserved ∧ (s.comboValue (Combo.ofCode w)).toNat = n := by
  have hnumber : s.comboNumber w.toNat =
      if Combo.ofCode w = .reserved then none else some (s.comboValue (Combo.ofCode w)).toNat := s.unbounded_combo w
  by_cases hk : Combo.ofCode w = .reserved <;> simp [hnumber, hk]

/-- An instruction that is legal, is no out and has one register write as its result completes with that write. -/
theorem exec_of_result_ofWrite {i : Instr} {s : State} {r : Reg} {v : Word} (hlegal : i.legal = true)
    (hop : i.opcode ≠ 5) (hresult : s.result i = .ofWrite r v) :
    exec i s = .next { s.countStep.setReg r v with pc := s.pc + 2 } := by
  rw [exec_of_faultOf_none ((s.faultOf_eq_none_iff i).mpr ⟨hlegal, fun h => absurd h hop⟩), hresult,
    State.commit_ofWrite]

/-! ### The three shifts as one -/

/-- The shift of A that writes register `d`: adv, bdv or cdv (R121 to R123). -/
def shiftInto (d : Reg) (k : Combo) : Instr :=
  match d with
  | .A => .adv k
  | .B => .bdv k
  | .C => .cdv k

theorem shiftInto_opcode_ne_out (d : Reg) (k : Combo) : (shiftInto d k).opcode ≠ 5 := by
  cases d <;> simp [shiftInto, Instr.opcode]

theorem legal_shiftInto_eq_false_iff (d : Reg) (k : Combo) : (shiftInto d k).legal = false ↔ k = .reserved := by
  rw [legal_eq_false_iff]
  cases d <;> simp [shiftInto, Instr.combo?]

theorem State.result_shiftInto (s : State) (d : Reg) (k : Combo) :
    s.result (shiftInto d k) = .ofWrite d (shr s.a (s.comboValue k)) := by
  cases d <;> rfl

/-- A shift whose operand is not code 7 completes; the count is the operand's value before the write. -/
theorem exec_shiftInto (s : State) (d : Reg) {k : Combo} (h : k ≠ .reserved) :
    exec (shiftInto d k) s =
      .next { s.countStep.setReg d (shr s.a (s.comboValue k)) with pc := s.pc + 2 } := by
  have hlegal : (shiftInto d k).legal = true :=
    Bool.eq_true_of_not_eq_false fun hl => h ((legal_shiftInto_eq_false_iff d k).mp hl)
  exact exec_of_result_ofWrite hlegal (shiftInto_opcode_ne_out d k) (s.result_shiftInto d k)

/-- The same with the operand's number and the quotient, as R121 to R123 state it. -/
theorem exec_shiftInto_of_comboNumber {s : State} {w : Word3} {n : Nat} (d : Reg)
    (h : s.comboNumber w.toNat = some n) :
    exec (shiftInto d (Combo.ofCode w)) s =
      .next { s.countStep.setReg d (BitVec.ofNat 64 (s.a.toNat / 2 ^ n)) with pc := s.pc + 2 } := by
  obtain ⟨hk, rfl⟩ := (s.comboNumber_eq_some_iff w n).mp h
  rw [exec_shiftInto s d hk, ofNat_div_two_pow]

/-- A shift with operand 7 takes INVALID_OPERAND. -/
theorem exec_shiftInto_seven (s : State) (d : Reg) :
    exec (shiftInto d (Combo.ofCode 7)) s =
      .next (s.takeFault (s.raised .invalidOperand (shiftInto d .reserved))) :=
  exec_of_illegal s ((legal_shiftInto_eq_false_iff d .reserved).mpr rfl)

/-- The register that a shift writes holds the shift of A by the operand's value. -/
theorem getReg_of_exec_shiftInto {s t : State} {d : Reg} {k : Combo} (hk : k ≠ .reserved)
    (h : exec (shiftInto d k) s = .next t) : t.getReg d = shr s.a (s.comboValue k) := by
  rw [exec_shiftInto s d hk] at h
  cases h
  cases d <;> rfl

section CornerCases
variable {s t : State} {d : Reg} {w : Word3} (h : exec (shiftInto d (Combo.ofCode w)) s = .next t)
include h

/-- Operand 0 copies A. -/
theorem getReg_of_exec_shiftInto_zero (hw : w = 0) : t.getReg d = s.a := by
  subst hw
  exact (getReg_of_exec_shiftInto (by decide) h).trans (shr_zero s.a)

/-- Operand 4 shifts A by A itself. -/
theorem getReg_of_exec_shiftInto_four (hw : w = 4) : t.getReg d = 0 := by
  subst hw
  exact (getReg_of_exec_shiftInto (by decide) h).trans (shr_self s.a)

/-- The operand that names register `q` shifts by the old value of `q`, also where `q` is the register written. -/
theorem getReg_of_exec_shiftInto_reg {q : Reg} (hw : w = (Combo.reg q).code) :
    t.getReg d = shr s.a (s.getReg q) := by
  subst hw
  rw [Combo.ofCode_code] at h
  exact getReg_of_exec_shiftInto (by simp) h

/-- From A = 0 a shift gives 0, and operand 7 leaves the register as it was. -/
theorem getReg_of_exec_shiftInto_of_a_zero (ha : s.a = 0) (hd : s.getReg d = 0) : t.getReg d = 0 := by
  by_cases hk : Combo.ofCode w = .reserved
  · obtain rfl := (ofCode_eq_reserved_iff w).mp hk
    cases (exec_shiftInto_seven s d).symm.trans h
    rw [State.getReg_takeFault, hd]
  · rw [getReg_of_exec_shiftInto hk h, ha, zero_shr]

end CornerCases

/-! ### adv, bdv and cdv -/

/-- Settles O1: the shift into A; a count of 64 or more in B or C clears A because it is not masked. -/
theorem advShiftsAIntoA : Obligations.AdvShiftsAIntoA := by
  refine fun s w => ⟨rfl, fun n hn => exec_shiftInto_of_comboNumber .A hn, ?_, fun t h => ?_⟩
  · rintro rfl
    exact exec_shiftInto_seven s .A
  · have hreg {q : Reg} (hw : w = (Combo.reg q).code) : t.a = shr s.a (s.getReg q) :=
      getReg_of_exec_shiftInto_reg (d := .A) h hw
    exact ⟨getReg_of_exec_shiftInto_zero (d := .A) h, getReg_of_exec_shiftInto_four (d := .A) h,
      fun hw hb => (hreg (q := .B) hw).trans (shr_of_le s.a hb),
      fun hw hc => (hreg (q := .C) hw).trans (shr_of_le s.a hc),
      fun ha => getReg_of_exec_shiftInto_of_a_zero (d := .A) h ha ha⟩

/-- Settles O2: the shift into B, whose count may be the old B. -/
theorem bdvShiftsAIntoB : Obligations.BdvShiftsAIntoB := by
  refine fun s w => ⟨rfl, fun n hn => exec_shiftInto_of_comboNumber .B hn, ?_, fun t h => ?_⟩
  · rintro rfl
    exact exec_shiftInto_seven s .B
  · have hcount (hw : w = 5) : t.b = shr s.a s.b := getReg_of_exec_shiftInto_reg (d := .B) (q := .B) h hw
    exact ⟨exec_getReg (r := .A) h rfl, getReg_of_exec_shiftInto_zero (d := .B) h,
      fun hw => by rw [hcount hw, toNat_shr], getReg_of_exec_shiftInto_four (d := .B) h⟩

/-- Settles O3: the shift into C, whose count may be the old C. -/
theorem cdvShiftsAIntoC : Obligations.CdvShiftsAIntoC := by
  refine fun s w => ⟨rfl, fun n hn => exec_shiftInto_of_comboNumber .C hn, ?_, fun t h => ?_⟩
  · rintro rfl
    exact exec_shiftInto_seven s .C
  · have hcount (hw : w = 6) : t.c = shr s.a s.c := getReg_of_exec_shiftInto_reg (d := .C) (q := .C) h hw
    exact ⟨exec_getReg (r := .A) h rfl, getReg_of_exec_shiftInto_zero (d := .C) h,
      fun hw => by rw [hcount hw, toNat_shr], getReg_of_exec_shiftInto_four (d := .C) h⟩

end Sys2Proof.Machine
end

section
/-! PROOFS. The B-register ALU family: what bxl, bst and bxc write to B, as words and as the numbers of the statements
(R140 to R142). -/

namespace Sys2Proof.Machine

/-! ### The residue and the literal as words (R74, R141) -/

/-- The residue modulo 8, a number, as the word that bst writes. -/
theorem ofNat_toNat_mod_eight (v : Word) : BitVec.ofNat 64 (v.toNat % 8) = zext64 (low3 v) := by
  rw [← toNat_low3, ← toNat_zext64, BitVec.ofNat_toNat, BitVec.setWidth_eq]

/-- A literal has no bit above bit 2 (R74). -/
theorem literal_ushiftRight_three : ∀ w : Word3, literal w >>> 3 = 0#64 := by decide

/-- XOR with a literal keeps bits 63:3. -/
theorem xor_literal_ushiftRight_three (v : Word) (w : Word3) : (v ^^^ literal w) >>> 3 = v >>> 3 := by
  rw [BitVec.ushiftRight_xor_distrib, literal_ushiftRight_three, BitVec.xor_zero]

/-! ### bxl (R140) -/

/-- bxl completes with every literal: it has no combo operand that could fail. -/
theorem exec_bxl (s : State) (w : Word3) :
    exec (.bxl w) s = .next { s.countStep with b := s.b ^^^ literal w, pc := s.pc + 2 } :=
  exec_of_result_ofWrite (i := .bxl w) (r := .B) rfl (by simp [Instr.opcode]) rfl

theorem b_of_exec_bxl {s t : State} {w : Word3} (h : exec (.bxl w) s = .next t) : t.b = s.b ^^^ literal w := by
  cases (exec_bxl s w).symm.trans h
  rfl

/-- Settles O5: the literal has no bit above bit 2, and XOR with it undoes itself. -/
theorem bxlXorsLiteralIntoB : Obligations.BxlXorsLiteralIntoB := by
  refine fun s w => ⟨rfl, ?_, fun t ht => ⟨?_, ?_, fun u hu => ?_⟩⟩
  · rw [exec_bxl]
    simp only [BitVec.ofNat_xor, BitVec.ofNat_toNat, BitVec.setWidth_eq, literal, zext64]
  · rw [b_of_exec_bxl ht, xor_literal_ushiftRight_three]
  · rintro rfl
    exact (b_of_exec_bxl ht).trans BitVec.xor_zero
  · rw [b_of_exec_bxl hu, b_of_exec_bxl ht, xor_cancel_right]

/-! ### bst (R141) -/

/-- bst completes with every operand but code 7; the operand's value is read before B is written. -/
theorem exec_bst (s : State) {k : Combo} (h : k ≠ .reserved) :
    exec (.bst k) s = .next { s.countStep with b := zext64 (low3 (s.comboValue k)), pc := s.pc + 2 } := by
  have hlegal : (Instr.bst k).legal = true := by simpa [Instr.legal, Instr.combo?] using h
  exact exec_of_result_ofWrite (r := .B) hlegal (by simp [Instr.opcode]) rfl

theorem toNat_b_of_exec_bst {s t : State} {k : Combo} (hk : k ≠ .reserved) (h : exec (.bst k) s = .next t) :
    t.b.toNat = (s.comboValue k).toNat % 8 := by
  cases (exec_bst s hk).symm.trans h
  exact (toNat_zext64 _).trans (toNat_low3 _)

/-- The same with the operand given by the number of its code, as R75 lists them. -/
theorem toNat_b_of_exec_bst_of_comboNumber {s t : State} {w : Word3} {n : Nat}
    (h : exec (.bst (Combo.ofCode w)) s = .next t) (hn : s.comboNumber w.toNat = some n) : t.b.toNat = n % 8 := by
  obtain ⟨hk, rfl⟩ := (s.comboNumber_eq_some_iff w n).mp hn
  exact toNat_b_of_exec_bst hk h

/-- Settles O6: the residue of the operand's value, which R75's table gives for each code but 7. -/
theorem bstReducesComboModEight : Obligations.BstReducesComboModEight := by
  refine fun s w => ⟨rfl, fun n hn => ?_, ?_, fun t h => ⟨fun hw => ?_, fun hw => ?_, ?_, ?_, ?_⟩⟩
  · obtain ⟨hk, rfl⟩ := (s.comboNumber_eq_some_iff w n).mp hn
    rw [exec_bst s hk, ofNat_toNat_mod_eight]
  · rintro rfl
    exact exec_of_illegal s (i := .bst .reserved) rfl
  · have hmod := toNat_b_of_exec_bst ((ofCode_eq_reserved_iff w).not.mpr hw) h
    omega
  · rw [toNat_b_of_exec_bst_of_comboNumber h (if_pos hw), Nat.mod_eq_of_lt w.isLt]
  all_goals
    rintro rfl
    exact toNat_b_of_exec_bst_of_comboNumber h rfl

/-! ### bxc (R142) -/

/-- bxc completes with every operand word, which its result does not read. -/
theorem exec_bxc (s : State) (w : Word3) :
    exec (.bxc w) s = .next { s.countStep with b := s.b ^^^ s.c, pc := s.pc + 2 } :=
  exec_of_result_ofWrite (i := .bxc w) (r := .B) rfl (by simp [Instr.opcode]) rfl

theorem b_of_exec_bxc {s t : State} {w : Word3} (h : exec (.bxc w) s = .next t) : t.b = s.b ^^^ s.c := by
  cases (exec_bxc s w).symm.trans h
  rfl

/-- Settles O7: the whole next state, and the XOR of equal words and with 0. -/
theorem bxcXorsCIntoB : Obligations.BxcXorsCIntoB := by
  refine fun s w => ⟨rfl, ?_, fun t h => ⟨exec_getReg (r := .C) h rfl, fun hbc => ?_, fun hc => ?_⟩⟩
  · rw [exec_bxc]
    simp only [BitVec.ofNat_xor, BitVec.ofNat_toNat, BitVec.setWidth_eq]
  · rw [b_of_exec_bxc h, hbc]
    exact BitVec.xor_self
  · rw [b_of_exec_bxc h, hc]
    exact BitVec.xor_zero

end Sys2Proof.Machine
end

section
/-! PROOFS. Control transfer: what jnz does to pc and leaves alone, the jump to itself, and the jump to a target with no
pair (R160, R161). -/

namespace Sys2Proof.Machine

/-! ### jnz (R160) -/

/-- jnz completes with every target and has no register write and no output: it moves pc alone. -/
theorem exec_jnz (s : State) (w : Word3) :
    exec (.jnz w) s = .next { s.countStep with pc := if s.a ≠ 0 then w.toNat else s.pc + 2 } := by
  have hnone : s.faultOf (.jnz w) = none := (s.faultOf_eq_none_iff _).mpr ⟨rfl, by simp [Instr.opcode]⟩
  have hpc : s.nextPc (s.result (.jnz w)).next = if s.a ≠ 0 then w.toNat else s.pc + 2 := by
    simp [s.nextPc_result, Instr.opcode, Instr.operand]
  rw [exec_of_faultOf_none hnone, ← hpc]
  exact congrArg Host.Outcome.next (s.commit_next _)

theorem exec_jnz_taken {s : State} (w : Word3) (ha : s.a ≠ 0) :
    exec (.jnz w) s = .next { s.countStep with pc := w.toNat } := by
  rw [exec_jnz, if_pos ha]

theorem exec_jnz_not_taken {s : State} (w : Word3) (ha : s.a = 0) :
    exec (.jnz w) s = .next { s.countStep with pc := s.pc + 2 } := by
  rw [exec_jnz, if_neg (not_not_intro ha)]

/-! ### Runs from a taken jump (R108, R161) -/

theorem State.steps_succ_of_step {s t : State} (h : step s = .next t) (k : Nat) : s.steps (k + 1) = t.steps k := by
  rw [State.steps_succ, (s.after_step_eq_some_iff t).mpr h, Option.bind_some]

/-- The step that fetches a jnz with A not 0 is the jump, wherever its target is (R26, R161). -/
theorem step_jnz_taken {s : State} {w : Word3} (hrun : s.runState = .running) (hbudget : s.budgetSpent = false)
    (hfetch : s.fetch = .ok (3, w)) (ha : s.a ≠ 0) : step s = .next { s.countStep with pc := w.toNat } :=
  (step_of_fetch hrun hbudget hfetch).trans (exec_jnz_taken w ha)

/-- Counting an instruction has no part in what the next step fetches. -/
@[simp] theorem State.fetch_countStep (s : State) : s.countStep.fetch = s.fetch := rfl

/-- A taken jump to itself counts an instruction and does nothing else, so the next step is the same jump (R108). -/
theorem State.steps_jnz_self {s : State} {w : Word3} (ha : s.a ≠ 0) (hrun : s.runState = .running)
    (hmax : s.cfg.maxSteps = none) (hfetch : s.fetch = .ok (3, w)) (hpc : s.pc = w.toNat) (k : Nat) :
    ∃ t, s.steps k = some t ∧ t.runState = .running ∧ t.pc = s.pc ∧ t.a = s.a := by
  induction k generalizing s with
  | zero => exact ⟨s, rfl, hrun, rfl, rfl⟩
  | succ k ih =>
    have hstep : step s = .next s.countStep := by
      rw [step_jnz_taken hrun (State.budgetSpent_of_none hmax) hfetch ha, ← hpc]
      rfl
    rw [State.steps_succ_of_step hstep]
    exact ih (s := s.countStep) ha hrun hmax (s.fetch_countStep.trans hfetch) hpc

/-- Settles O8: the jump, the advance, and the loop by induction on the number of steps. -/
theorem jnzJumpsWhenANonzero : Obligations.JnzJumpsWhenANonzero :=
  fun _ w => ⟨rfl, exec_jnz_taken w, exec_jnz_not_taken w, State.steps_jnz_self⟩

/-- Settles O26: the jump leaves LEN, and the halt test at its target comes before the budget test. -/
theorem jumpPastEndHaltsNext : Obligations.JumpPastEndHaltsNext := by
  intro s w hrun hbudget hfetch ha hlen
  rw [State.steps_succ_of_step (step_jnz_taken hrun hbudget hfetch ha)]
  have hhalt := step_of_atEnd (s := { s.countStep with pc := w.toNat }) hrun hlen
  exact State.steps_succ_of_step hhalt 0

end Sys2Proof.Machine
end

section
/-! PROOFS. Output: the value that out appends, and the order of its two faults (R171). -/

namespace Sys2Proof.Machine

/-! ### The residue as a 3-bit word -/

/-- The residue modulo 8, a number, as the word that out appends. -/
theorem ofNat_three_toNat_mod_eight (v : Word) : BitVec.ofNat 3 (v.toNat % 8) = low3 v := by
  rw [← toNat_low3, BitVec.ofNat_toNat, BitVec.setWidth_eq]

/-! ### out (R171) -/

theorem legal_out {k : Combo} (h : k ≠ .reserved) : (Instr.out k).legal = true := by
  simpa [Instr.legal, Instr.combo?] using h

/-- While OUT has room, out completes with every operand but code 7. -/
theorem exec_out_of_not_full {s : State} {k : Combo} (hk : k ≠ .reserved) (hroom : s.outFull = false) :
    exec (.out k) s =
      .next { s.countStep with out := s.out ++ [low3 (s.comboValue k)], pc := s.pc + 2 } := by
  have hnone : s.faultOf (.out k) = none := (s.faultOf_eq_none_iff _).mpr ⟨legal_out hk, fun _ => hroom⟩
  rw [exec_of_faultOf_none hnone]
  exact congrArg Host.Outcome.next (s.commit_emit _)

/-- With OUT full, out overflows only where its operand has a value: code 7 is tested first (R208). -/
theorem exec_out_of_full {s : State} {k : Combo} (hk : k ≠ .reserved) (hfull : s.outFull = true) :
    exec (.out k) s = .next (s.takeFault (s.raised .outputOverflow (.out k))) :=
  exec_of_faultOf_some ((s.faultOf_eq_some_iff _ _).mpr (.inr ⟨legal_out hk, rfl, hfull, rfl⟩))

/-- A value appended to OUT is OUT_DATA (R30). -/
theorem State.outData_of_out_eq_concat {s : State} {ds : List Word3} {d : Word3} (h : s.out = ds ++ [d]) :
    s.outData = some d := by
  rw [State.outData, h, List.getLast?_concat]

/-- Settles O9: a code with a number is not 7, so OUT's room alone decides between the append and the overflow; with
code 7 out is illegal in every state. -/
theorem outAppendsComboModEight : Obligations.OutAppendsComboModEight := by
  refine fun s w => ⟨rfl, fun n hn hroom => ?_, fun n hn hdepth => ?_, ?_, fun _ _ _ => State.outData_of_out_eq_concat⟩
  · obtain ⟨hk, rfl⟩ := (s.comboNumber_eq_some_iff w n).mp hn
    have hnotFull : s.outFull = false := Bool.eq_false_iff.mpr (s.outFull_iff.not.mpr hroom)
    rw [exec_out_of_not_full hk hnotFull, ofNat_three_toNat_mod_eight]
  · obtain ⟨hk, -⟩ := (s.comboNumber_eq_some_iff w n).mp hn
    have hoperand : (Instr.out (Combo.ofCode w)).operand = w := operand_decodePair 5 w
    rw [exec_out_of_full hk (s.outFull_iff.mpr hdepth)]
    simp [State.takeFault, hoperand, Instr.opcode]
  · rintro rfl
    exact exec_of_illegal s (i := .out .reserved) rfl

end Sys2Proof.Machine
end

section
/-! PROOFS. The faults: which one a step takes and what it records, the order of the tests, what a budget bounds, and who
leaves FAULTED (R201 to R211). -/

namespace Sys2Proof.Machine

/-! ### Which fault a step takes (R201, R203) -/

/-- A step that ends in FAULTED took the budget's fault, or the fault of the pair it fetched with that pair's words. -/
theorem step_faulted {s t : State} (h : step s = .next t) (hfaulted : t.runState = .faulted) :
    t = s.takeFault ⟨.stepBudgetExhausted, .notBegun s.pc⟩ ∨
    ∃ op operand c, s.fetch = .ok (op, operand) ∧ s.faultOf (decodePair op operand) = some c ∧
      t = s.takeFault ⟨c, .insn s.pc op operand⟩ := by
  obtain ⟨hrun, ⟨-, rfl⟩ | ⟨-, -, hbudget⟩ | ⟨-, -, op, operand, hfetch, hexec⟩⟩ := step_cases s t h
  · simp at hfaulted
  · exact .inl hbudget
  · rcases exec_cases hexec with ⟨-, rfl⟩ | ⟨c, hfault, rfl⟩
    · simp [hrun] at hfaulted
    · exact .inr ⟨op, operand, c, hfetch, hfault, by simp [State.raised]⟩

/-- A step that changes CAUSE ends in FAULTED (R211). -/
theorem step_cause_ne {s t : State} (h : step s = .next t) (hne : t.cause ≠ s.cause) : t.runState = .faulted := by
  obtain ⟨-, rfl | ⟨f, -, rfl⟩ | ⟨op, operand, -, -, -, rfl⟩⟩ := step_outcome h
  · exact absurd s.halt_cause hne
  · exact s.takeFault_runState f
  · exact absurd (s.commit_cause _) hne

/-- The fault of an instruction is INVALID_OPERAND exactly if it is an illegal encoding (R80, R201). -/
theorem State.faultOf_eq_invalidOperand_iff (s : State) (i : Instr) :
    s.faultOf i = some .invalidOperand ↔ i.legal = false := by
  simp [s.faultOf_eq_some_iff]

/-- The opcodes of the combo instructions are all but those of bxl, jnz and bxc (R75). -/
theorem mem_comboOpcodes_iff : ∀ op : Word3,
    op ∈ ([0, 2, 5, 6, 7] : List Word3) ↔ op ≠ 1 ∧ op ≠ 3 ∧ op ≠ 4 := by decide

/-- The illegal pairs are operand 7 with the opcode of a combo instruction (R80, R201). -/
theorem legal_decodePair_eq_false_iff_mem (op operand : Word3) :
    (decodePair op operand).legal = false ↔ operand = 7 ∧ op ∈ ([0, 2, 5, 6, 7] : List Word3) := by
  rw [legal_decodePair_eq_false_iff, mem_comboOpcodes_iff]

/-- The step that gets to executing an illegal pair takes INVALID_OPERAND with the pair's words (R201). -/
theorem step_of_illegal {s : State} {op operand : Word3} (hrun : s.runState = .running)
    (hbudget : s.budgetSpent = false) (hfetch : s.fetch = .ok (op, operand))
    (hlegal : (decodePair op operand).legal = false) :
    step s = .next (s.takeFault ⟨.invalidOperand, .insn s.pc op operand⟩) := by
  rw [step_of_fetch hrun hbudget hfetch, exec_of_illegal s hlegal]
  simp [State.raised]

/-- Settles O12: a legal instruction has no such fault, a step that takes it fetched an illegal pair, and executing such a
pair takes it. -/
theorem invalidOperandOnlyFromOperandSeven : Obligations.InvalidOperandOnlyFromOperandSeven := by
  refine ⟨fun i s t hlegal hcause h => ?_, fun s t hcause h hinvalid => ?_, fun s op hrun _ hbudget hfetch hop => ?_⟩
  · rcases exec_cases h with ⟨-, rfl⟩ | ⟨c, hfault, rfl⟩
    · rwa [State.commit_cause]
    · rintro rfl
      simp [(s.faultOf_eq_invalidOperand_iff i).mp hfault] at hlegal
  · have hfaulted : t.runState = .faulted := step_cause_ne h (by rw [hinvalid]; exact hcause.symm)
    rcases step_faulted h hfaulted with rfl | ⟨op, operand, c, hfetch, hfault, rfl⟩
    · simp at hinvalid
    · obtain rfl : c = .invalidOperand := hinvalid
      have hlegal := (s.faultOf_eq_invalidOperand_iff _).mp hfault
      obtain ⟨rfl, hop⟩ := (legal_decodePair_eq_false_iff_mem op operand).mp hlegal
      exact ⟨op, hfetch, hop, rfl⟩
  · exact step_of_illegal hrun hbudget hfetch ((legal_decodePair_eq_false_iff_mem op 7).mpr ⟨rfl, hop⟩)

/-- Settles O19: a fault of a step is the budget's or the fetched pair's, and one of START has no pair. -/
theorem faultsArePrecise : Obligations.FaultsArePrecise := by
  refine ⟨fun s t h hfaulted => ?_, fun s t h hfaulted => ?_⟩
  · rcases step_faulted h hfaulted with rfl | ⟨op, operand, c, hfetch, hfault, rfl⟩
    · exact ⟨_, _, rfl, .inl ⟨rfl, rfl⟩⟩
    · have hcause : c = .invalidOperand ∨ c = .outputOverflow := by
        simpa [Cause.ofInsn] using State.faultOf_ofInsn hfault
      exact ⟨_, _, rfl, .inr ⟨hcause, op, operand, hfetch, rfl⟩⟩
  · obtain rfl := State.transact_start_accepted h
    rcases s.hostStart_outcome with ⟨hlaunch, -, -⟩ | ⟨c, hc, hfault⟩
    · simp [hlaunch] at hfaulted
    · exact ⟨c, hc, hfault⟩

/-! ### The order of the tests (R208) -/

theorem State.transact_start {s : State} (hrun : s.runState ≠ .running) :
    s.transact .start = (s.hostStart, .accepted) := if_neg hrun

/-- START looks at the loaded flags first (R207, R208). -/
theorem State.hostStart_of_not_loaded {s : State} (hall : s.allLoaded = false) :
    s.hostStart = s.takeFault ⟨.notLoaded, .atStart⟩ := by simp [State.hostStart, hall]

/-- With every flag set START looks at the length (R206, R208). -/
theorem State.hostStart_of_malformed {s : State} (hall : s.allLoaded = true) (hlen : lengthWellFormed s.len = false) :
    s.hostStart = s.takeFault ⟨.malformedProgram, .atStart⟩ := by simp [State.hostStart, hall, hlen]

/-- The step that gets to executing an out of a legal operand with OUT full takes OUTPUT_OVERFLOW (R171, R205). -/
theorem step_of_out_full {s : State} {w : Word3} (hrun : s.runState = .running) (hbudget : s.budgetSpent = false)
    (hfetch : s.fetch = .ok (5, w)) (hw : w ≠ 7) (hfull : s.outFull = true) :
    step s = .next (s.takeFault (s.raised .outputOverflow (decodePair 5 w))) := by
  have hlegal : (decodePair 5 w).legal = true :=
    Bool.eq_true_of_not_eq_false fun hl => hw ((legal_decodePair_eq_false_iff 5 w).mp hl).1
  have hfault : s.faultOf (decodePair 5 w) = some .outputOverflow :=
    (s.faultOf_eq_some_iff _ _).mpr (.inr ⟨hlegal, opcode_decodePair 5 w, hfull, rfl⟩)
  rw [step_of_fetch hrun hbudget hfetch, exec_of_faultOf_some hfault]

/-- Settles O20: each test, with what comes before it in R208's order not holding, decides the step or the START. -/
theorem priorityOfConditions : Obligations.PriorityOfConditions := by
  refine ⟨fun s hrun hend => step_of_atEnd hrun hend,
    fun s hrun hpair hbudget => ⟨_, step_of_budgetSpent hrun hpair hbudget, rfl⟩,
    fun s hrun _ hbudget _ hfetch => ⟨_, step_of_illegal hrun hbudget hfetch (by decide), rfl⟩,
    fun s hrun _ hbudget hfull w hw hfetch => ⟨_, step_of_out_full hrun hbudget hfetch hw hfull, rfl⟩,
    fun s hrun hall => ?_, fun s hrun hall hlen => ?_⟩
  · rw [State.transact_start hrun, State.hostStart_of_not_loaded hall]; rfl
  · rw [State.transact_start hrun, State.hostStart_of_malformed hall hlen]; rfl

/-! ### The budget (R102, R204, R250) -/

/-- A step after which the run goes on found its budget unspent and counted one instruction (R38, R102). -/
theorem step_goes_on {s t : State} (h : step s = .next t) (hgoes : t.runState = .running) :
    s.budgetSpent = false ∧ t.stepCount = s.countNext := by
  obtain ⟨-, rfl | ⟨f, -, rfl⟩ | ⟨op, operand, -, hbudget, -, rfl⟩⟩ := step_outcome h
  · simp at hgoes
  · simp at hgoes
  · exact ⟨hbudget, s.commit_stepCount _⟩

/-- On a budget below 2^64 the count does not reach log 4's free value: a step after which the run goes on adds one. -/
theorem State.Inv.stepCount_of_goes_on {s t : State} {n : Nat} (hs : s.Inv) (hmax : s.cfg.maxSteps = some n)
    (hn : n < 2 ^ 64) (h : Machine.step s = .next t) (hgoes : t.runState = .running) :
    t.stepCount.toNat = s.stepCount.toNat + 1 := by
  obtain ⟨hbudget, hcount⟩ := step_goes_on h hgoes
  have hle := hs.count_le n hmax hn
  have hne : s.stepCount.toNat ≠ n := by
    rintro rfl
    simp [s.budgetSpent_iff.mpr hmax] at hbudget
  rw [hcount]
  exact (s.countNext_of_lt (by omega)).2.1

/-- Settles O29, by induction on the budget left: a step ends the run, or the run goes on with one less left. -/
theorem budgetEndsEveryRun : Obligations.BudgetEndsEveryRun := by
  intro s n hs hrun hmax hn
  induction hleft : n - s.stepCount.toNat using Nat.strong_induction_on generalizing s with
  | _ left ih =>
    obtain ⟨t, hstep⟩ := runningStepCompletes s hs hrun
    have ht : t.Inv := hs.step hstep
    have htmax : t.cfg.maxSteps = some n := by rw [(step_prog_cfg hstep).2, hmax]
    have htle : t.stepCount.toNat ≤ n := ht.count_le n htmax hn
    by_cases hgoes : t.runState = .running
    · have hcount := hs.stepCount_of_goes_on hmax hn hstep hgoes
      obtain ⟨k, u, hk, hsteps, hended, hule⟩ := ih (n - t.stepCount.toNat) (by omega) t ht hgoes htmax rfl
      exact ⟨k + 1, u, by omega, (State.steps_succ_of_step hstep k).trans hsteps, hended, hule⟩
    · exact ⟨1, t, by omega, State.steps_succ_of_step hstep 0, hgoes, htle⟩

/-! ### Leaving FAULTED (R210, R211) -/

/-- Of the transactions only RESET and START change STATE or CAUSE (R210, R211). -/
theorem State.transact_runState_cause {s : State} {x : Transaction} (hreset : x ≠ .reset) (hstart : x ≠ .start) :
    (s.transact x).1.runState = s.runState ∧ (s.transact x).1.cause = s.cause := by
  rcases s.transact_cases x with h | ⟨rfl, -⟩ | ⟨-, -, ⟨r, v, rfl, h⟩ | ⟨ws, rfl, -, h⟩ | ⟨rfl, -⟩⟩
  · rw [h]; exact ⟨rfl, rfl⟩
  · exact absurd rfl hreset
  · rw [h]; simp [State.hostWriteReg]
  · rw [h]; exact ⟨rfl, rfl⟩
  · exact absurd rfl hstart

/-- Settles O52: a step needs RUNNING, and only the two named transactions touch STATE or CAUSE. -/
theorem onlyTheHostLeavesFaulted : Obligations.OnlyTheHostLeavesFaulted := by
  refine fun s hfaulted => ⟨fun t h => ?_, fun x hreset hstart => ?_⟩
  · simp [(step_cases s t h).1] at hfaulted
  · obtain ⟨hstate, hcause⟩ := State.transact_runState_cause (s := s) hreset hstart
    exact ⟨hstate.trans hfaulted, hcause⟩

end Sys2Proof.Machine
end

section
/-! PROOFS. The host's transactions as whole states and replies, and the boot order (R240 to R249). -/

namespace Sys2Proof.Machine

/-! ### Effects and refusals (R242, R245) -/

/-- Settles O32: a transaction leaves the state, or has the effect of a RESET, a load or a START, each of which keeps
the invariant. -/
theorem transactionKeepsInvariant : Obligations.TransactionKeepsInvariant := fun _ x hs => hs.transact x

/-- Settles O46: each transaction that has an effect is accepted, and a READ or a READ_OUTPUT has none. -/
theorem refusedTransactionChangesNothing : Obligations.RefusedTransactionChangesNothing := by
  refine fun s x => ⟨fun hrefused => ?_, fun hread => ?_⟩
  · rcases s.transact_cases x with h | ⟨-, h⟩ | ⟨-, haccepted, -⟩
    · exact h
    · simp [h] at hrefused
    · simp [haccepted] at hrefused
  · rcases s.transact_cases x with h | ⟨rfl, -⟩ | ⟨-, -, ⟨r, v, rfl, -⟩ | ⟨ws, rfl, -, -⟩ | ⟨rfl, -⟩⟩
    · exact h
    all_goals simp at hread

/-! ### WRITE_REG (R243) -/

theorem State.transact_writeReg {s : State} (hrun : s.runState ≠ .running) (r : Reg) (v : Word) :
    s.transact (.writeReg r v) = (s.hostWriteReg r v, .accepted) := if_neg hrun

theorem State.transact_writeReg_of_running {s : State} (hrun : s.runState = .running) (r : Reg) (v : Word) :
    s.transact (.writeReg r v) = (s, .refused) := if_pos hrun

/-- Settles O42: the accepted write of each register, and the refusal of any. -/
theorem writeRegLoadsRegister : Obligations.WriteRegLoadsRegister :=
  fun _ v =>
    ⟨fun hrun =>
        ⟨State.transact_writeReg hrun .A v, State.transact_writeReg hrun .B v, State.transact_writeReg hrun .C v⟩,
      fun hrun r => State.transact_writeReg_of_running hrun r v⟩

/-! ### START (R246) -/

/-- A length that START takes for malformed is odd or below 2 (R206). -/
theorem lengthWellFormed_eq_false_iff (n : Nat) : lengthWellFormed n = false ↔ n % 2 = 1 ∨ n < 2 := by
  simp [lengthWellFormed, Classical.or_iff_not_imp_left]

theorem lengthWellFormed_iff (n : Nat) : lengthWellFormed n = true ↔ n % 2 = 0 ∧ 2 ≤ n := by
  simp [lengthWellFormed]

theorem State.allLoaded_iff (s : State) :
    s.allLoaded = true ↔ s.aLd = true ∧ s.bLd = true ∧ s.cLd = true ∧ s.pLd = true := by
  simp [State.allLoaded, and_assoc]

theorem State.hostStart_of_ready {s : State} (hall : s.allLoaded = true) (hlen : lengthWellFormed s.len = true) :
    s.hostStart = s.launch := by simp [State.hostStart, hall, hlen]

/-- Settles O44: the flags and the length decide between the two faults and the launch. -/
theorem startLaunchesOrFaults : Obligations.StartLaunchesOrFaults := by
  refine fun s => ⟨fun hrun => if_pos hrun, fun hrun => ?_⟩
  rw [State.transact_start hrun]
  refine ⟨fun hnot => ?_, fun ha hb hc hp => ⟨fun hbad => ?_, fun heven htwo => ?_⟩⟩
  · rw [State.hostStart_of_not_loaded (Bool.eq_false_iff.mpr fun hall => hnot (s.allLoaded_iff.mp hall))]; rfl
  · rw [State.hostStart_of_malformed (s.allLoaded_iff.mpr ⟨ha, hb, hc, hp⟩)
      ((lengthWellFormed_eq_false_iff _).mpr hbad)]; rfl
  · rw [State.hostStart_of_ready (s.allLoaded_iff.mpr ⟨ha, hb, hc, hp⟩)
      ((lengthWellFormed_iff _).mpr ⟨heven, htwo⟩)]; rfl

/-! ### LOAD_PROGRAM (R244) -/

theorem State.transact_loadProgram_of_refused {s : State} {ws : List Word3}
    (h : s.runState = .running ∨ s.cfg.progMaxLen < ws.length) : s.transact (.loadProgram ws) = (s, .refused) :=
  if_neg fun ⟨hrun, hlen⟩ => h.elim hrun (Nat.not_lt.mpr hlen)

/-- A read of a loaded program is a look-up in the list of its words, which has none from its length on (R244). -/
theorem Memory.read_ofWords (ws : List Word3) (i : Nat) : Memory.read (Memory.ofWords ws) i = ws[i]? := by
  rw [Memory.ofWords, Memory.read_ofWordsFrom, if_pos (Nat.zero_le i), Nat.sub_zero]

/-- Settles O43: the load does not look at the length's parity, and START after it does. -/
theorem loadProgramReplacesTheStore : Obligations.LoadProgramReplacesTheStore := by
  refine fun s ws => ⟨fun hrun hlen => ?_, State.transact_loadProgram_of_refused⟩
  rw [State.transact_loadProgram hrun hlen]
  refine ⟨rfl, Memory.read_ofWords ws, fun hbad ha hb hc => ?_⟩
  have hall : (s.hostLoadProgram ws).allLoaded = true := (State.allLoaded_iff _).mpr ⟨ha, hb, hc, rfl⟩
  rw [State.transact_start (s := s.hostLoadProgram ws) hrun,
    State.hostStart_of_malformed hall ((lengthWellFormed_eq_false_iff _).mpr hbad)]
  rfl

/-! ### Loads in any order (R249) -/

/-- Two transactions have the same effect in either order, from every state. -/
def Transaction.Commutes (x y : Transaction) : Prop :=
  ∀ s : State, ((s.transact x).1.transact y).1 = ((s.transact y).1.transact x).1

theorem Transaction.Commutes.symm {x y : Transaction} (h : x.Commutes y) : y.Commutes x := fun s => (h s).symm

@[simp] theorem State.hostWriteReg_runState (s : State) (r : Reg) (v : Word) :
    (s.hostWriteReg r v).runState = s.runState := by simp [State.hostWriteReg]

@[simp] theorem State.hostWriteReg_cfg (s : State) (r : Reg) (v : Word) : (s.hostWriteReg r v).cfg = s.cfg := by
  simp [State.hostWriteReg]

theorem State.setLoaded_comm (s : State) (r q : Reg) :
    (s.setLoaded r).setLoaded q = (s.setLoaded q).setLoaded r := by cases r <;> cases q <;> rfl

theorem State.setLoaded_setReg (s : State) (r q : Reg) (v : Word) :
    (s.setLoaded r).setReg q v = (s.setReg q v).setLoaded r := by cases r <;> cases q <;> rfl

theorem State.hostWriteReg_comm (s : State) {r q : Reg} (h : q ≠ r) (v w : Word) :
    (s.hostWriteReg r v).hostWriteReg q w = (s.hostWriteReg q w).hostWriteReg r v := by
  simp only [State.hostWriteReg, State.setLoaded_setReg]
  rw [State.setReg_comm s h, State.setLoaded_comm]

theorem State.hostWriteReg_hostLoadProgram (s : State) (r : Reg) (v : Word) (ws : List Word3) :
    (s.hostWriteReg r v).hostLoadProgram ws = (s.hostLoadProgram ws).hostWriteReg r v := by cases r <;> rfl

/-- WRITE_REGs of two registers are independent: each is accepted or refused by STATE alone, which neither changes. -/
theorem writeReg_commutes_writeReg {r q : Reg} (h : q ≠ r) (v w : Word) :
    (Transaction.writeReg r v).Commutes (.writeReg q w) := by
  intro s
  by_cases hrun : s.runState = .running
  · simp only [State.transact_writeReg_of_running hrun]
  · rw [State.transact_writeReg hrun, State.transact_writeReg hrun, State.transact_writeReg (by simpa using hrun),
      State.transact_writeReg (by simpa using hrun), s.hostWriteReg_comm h]

/-- A WRITE_REG and a LOAD_PROGRAM are independent: neither changes what the other's condition is about. -/
theorem loadProgram_commutes_writeReg (ws : List Word3) (r : Reg) (v : Word) :
    (Transaction.loadProgram ws).Commutes (.writeReg r v) := by
  intro s
  by_cases hrun : s.runState = .running
  · rw [State.transact_loadProgram_of_refused (.inl hrun), State.transact_writeReg_of_running hrun,
      State.transact_loadProgram_of_refused (.inl hrun)]
  rw [State.transact_writeReg hrun]
  by_cases hlen : ws.length ≤ s.cfg.progMaxLen
  · rw [State.transact_loadProgram hrun hlen, State.transact_writeReg (by simpa using hrun),
      State.transact_loadProgram (by simpa using hrun) (by simpa using hlen), s.hostWriteReg_hostLoadProgram]
  · have hlong : s.cfg.progMaxLen < ws.length := Nat.lt_of_not_le hlen
    rw [State.transact_loadProgram_of_refused (.inr hlong), State.transact_writeReg hrun,
      State.transact_loadProgram_of_refused (.inr (by simpa using hlong))]

theorem bootLoads_pairwise_commutes (ws : List Word3) (a b c : Word) :
    (bootLoads ws a b c).Pairwise Transaction.Commutes := by
  simp [bootLoads, loadProgram_commutes_writeReg, writeReg_commutes_writeReg]

/-- Any order of loads that commute has the effect of any other. -/
theorem State.transactAll_perm (s : State) {xs ys : List Transaction} (hperm : xs.Perm ys)
    (hcomm : ys.Pairwise Transaction.Commutes) : s.transactAll xs = s.transactAll ys := by
  have : Std.Symm Transaction.Commutes := ⟨fun _ _ h => h.symm⟩
  have hall := List.Pairwise.forall_of_forall (fun x _ s => rfl) hcomm
  exact (hperm.symm.foldl_eq' (fun x hx y hy u => hall hx hy u) s).symm

theorem State.transactAll_append_start (s : State) (xs : List Transaction) :
    s.transactAll (xs ++ [.start]) = ((s.transactAll xs).transact .start).1 := by
  simp [State.transactAll]

/-! ### The boot order (R248, R249) -/

/-- Power-on followed by the four loads of the boot order, before START. -/
theorem transactAll_bootLoads {cfg : Config} {ws : List Word3} (a b c : Word) (hlen : ws.length ≤ cfg.progMaxLen) :
    (State.resetWith cfg).transactAll (bootLoads ws a b c) =
      { State.resetWith cfg with
        a := a, b := b, c := c, aLd := true, bLd := true, cLd := true,
        prog := Memory.ofWords ws, len := ws.length, pLd := true } := by
  have hidle : (State.resetWith cfg).runState ≠ .running := by simp [State.resetWith]
  simp only [State.transactAll, bootLoads, List.foldl_cons, List.foldl_nil]
  rw [State.transact_loadProgram hidle hlen]
  rfl

/-- Settles O50: the loads commute, so the boot order's own order stands for all, and START finds everything ready. -/
theorem bootReachesTheLaunchState : Obligations.BootReachesTheLaunchState := by
  intro cfg ws a b c loads hprogram hperm
  obtain ⟨hgood, hlen⟩ : lengthWellFormed ws.length = true ∧ ws.length ≤ cfg.progMaxLen := by
    simpa [programWellFormed] using hprogram
  rw [State.transactAll_append_start, State.transactAll_perm _ hperm (bootLoads_pairwise_commutes ws a b c),
    transactAll_bootLoads a b c hlen, State.transact_start (by simp [State.resetWith]),
    State.hostStart_of_ready rfl hgood]
  rfl

end Sys2Proof.Machine
end
